-- ==== Sys2Proof/Word.lean ====
section
/-! DEFINITION. The widths the spec gives values on the bus and in registers (00_scope.md R6, 10_state.md R10).
Every value is unsigned and bit 0 is its least significant bit. -/

namespace Sys2Proof

/-- A level or a one-bit register: `true` is 1, electrically high (R6). -/
abbrev Bit := Bool

/-- Eight bits: a scancode, a keyboard ID, a rumble operand, a mouse coordinate. -/
abbrev Byte := BitVec 8

/-- The value of one `shift_dibit`: data0 is bit 0 and data1 is bit 1 (R32). -/
abbrev Dibit := BitVec 2

/-- The 32-bit shift-in word, raw (`r`) or complemented (`w`) (R51). -/
abbrev DataWord := BitVec 32

/-- The 20-bit host command word (R62). -/
abbrev Command := BitVec 20

end Sys2Proof
end

