-- ==== Sys2Proof/Syntax.lean ====
section
/-! DEFINITION. The names of the block (pins, device types), the frame formats of 30_encoding.md R50, and the one
inductive of instructions, one constructor for each row of spec/opcode_table.json. -/

namespace Sys2Proof

/-- The five pins of BusConfig by their roles (20_memory.md R30).
The identifiers themselves are open straps and only have to be distinct (D4): log 14. -/
inductive Pin where
  | clk | latch | io | d0 | d1
deriving DecidableEq, Repr, Inhabited

/-- The pins the block drives: the operands of `PinWrite` (R67). -/
inductive OutPin where
  | clk | latch | io
deriving DecidableEq, Repr, Inhabited

/-- The pins the block samples: the operands of `PinRead` and `shift_bit` (R68, R72). -/
inductive InPin where
  | d0 | d1
deriving DecidableEq, Repr, Inhabited

/-- The direction operand of `PinConfig` (R70). -/
inductive Dir where
  | output | input
deriving DecidableEq, Repr, Inhabited

/-- The values of `pin_dir[p]` (10_state.md R10, R24). -/
inductive PinDir where
  | unconfigured | output | inputPullUp
deriving DecidableEq, Repr, Inhabited

/-- DeviceType (10_state.md R14), in the source's order. -/
inductive DeviceType where
  | none | controller | nes | mouse | keyboard
deriving DecidableEq, Repr, Inhabited

/-- A word in one of the formats of the opcode table, tagged by its format.
The command format is the host's.
The others are the patterns the block itself decodes inside a read cycle, or sends (30_encoding.md R50).
`dataWord` carries the two side inputs of the priority decode of R59, and `demux` the device type that selects the
demultiplexer (R79). -/
inductive Frame where
  /-- CMD20: the host command word (R62). -/
  | command (cmd : Command)
  /-- WORD32: the complemented word with `k` (the sub-read matched) and `hint` (data0 was high before the latch) (R59). -/
  | dataWord (k hint : Bit) (w : DataWord)
  /-- WORD32: the complemented word given to the demultiplexer of a device type (R79). -/
  | demux (t : DeviceType) (w : DataWord)
  /-- MOUSE_SPEED2: `w[11:10]` (R60). -/
  | mouseSpeed (field : BitVec 2)
  /-- KBD_ID8: the keyboard ID byte as assembled (R61). -/
  | kbdId (id : Byte)
  /-- KBD_PARTIAL6: the partial ID after three dibits (R61). -/
  | kbdPartial (partialId : BitVec 6)
  /-- KBD_PACKET: the 12 header bits in arrival order, bit `j` the `j`-th to arrive (R55). -/
  | kbdPacket (header : BitVec 12)
  /-- RUMBLE16: the rumble frame (R57). -/
  | rumble (frame : BitVec 16)
deriving DecidableEq, Repr

/-- One constructor per row of spec/opcode_table.json, in the table's order. -/
inductive Instr where
  /-- INIT (R75). -/
  | init
  /-- BEGIN (R76). -/
  | begin
  /-- START (R78). -/
  | start
  /-- POLL (R79). -/
  | poll
  /-- SET_CAPS_LOCK_LED (R92). -/
  | setCapsLockLed (flag : Bit)
  /-- SET_RUMBLE (R94). -/
  | setRumble (left right : Byte)
  /-- RESERVED_6_7 (R64). -/
  | reserved67
  /-- RESERVED_8_F (R64). -/
  | reserved8F
  /-- CLASSIFY_DISCONNECTED (R81), with the word it was read from. -/
  | classifyDisconnected (w : DataWord)
  /-- CLASSIFY_KEYBOARD (R82). -/
  | classifyKeyboard (w : DataWord)
  /-- CLASSIFY_CONTROLLER (R82). -/
  | classifyController (w : DataWord)
  /-- CLASSIFY_NES (R82). -/
  | classifyNes (w : DataWord)
  /-- CLASSIFY_MOUSE (R82). -/
  | classifyMouse (w : DataWord)
  /-- CLASSIFY_UNKNOWN (R82). -/
  | classifyUnknown (w : DataWord)
  /-- DEMUX_CONTROLLER (R84). -/
  | demuxController (w : DataWord)
  /-- DEMUX_NES (R85). -/
  | demuxNes (w : DataWord)
  /-- DEMUX_MOUSE (R86). -/
  | demuxMouse (w : DataWord)
  /-- SPEED_SLOW (R87). -/
  | speedSlow
  /-- SPEED_FAST (R87). -/
  | speedFast
  /-- SPEED_MEDIUM (R87). -/
  | speedMedium
  /-- SPEED_MALFORMED (R87). -/
  | speedMalformed
  /-- KBD_ID_MATCH (R89). -/
  | kbdIdMatch
  /-- KBD_ID_HEAL (R91). -/
  | kbdIdHeal
  /-- KBD_ID_EARLY (R90). -/
  | kbdIdEarly
  /-- KBD_PACKET (R55). -/
  | kbdPacket (id : Byte) (count : BitVec 4)
  /-- RUMBLE_FRAME (R57). -/
  | rumbleFrame (right left : BitVec 4)
  /-- latch_and_prime (R71). -/
  | latchAndPrime
  /-- shift_bit (R72). -/
  | shiftBit (pin : InPin)
  /-- shift_dibit (R73). -/
  | shiftDibit
  /-- read (R80). -/
  | read
  /-- classify (R82). -/
  | classify (w : DataWord) (k : Bit)
  /-- mouse_speed_update (R87). -/
  | mouseSpeedUpdate (w : DataWord)
  /-- rev8 (R83). -/
  | rev8 (x : Byte)
  /-- kbd_subread (R89). -/
  | kbdSubread (idOnly : Bit)
  /-- PinWrite (R67). -/
  | pinWrite (pin : OutPin) (level : Bit)
  /-- PinRead (R68). -/
  | pinRead (pin : InPin)
  /-- Delay (R69), in nominal microseconds. -/
  | delay (micros : Nat)
  /-- PinConfig (R70). -/
  | pinConfig (pin : Pin) (dir : Dir) (pull : Bit)
deriving DecidableEq, Repr

end Sys2Proof
end

