-- ==== Sys2Proof/Config.lean ====
section
/-! DEFINITION. What no document gives a value: the OPEN parameters of 00_scope.md R5 and the free values.
Every constant here is uninterpreted, so a proof about the model holds whatever it is.
The parameters that have a value are in Sys2Proof/Machine/Params.lean. -/

namespace Sys2Proof

/-- MOUSE_PRECISION, OPEN (R5, D19): log 13. -/
opaque Config.mousePrecision : Nat

/-- MOUSE_FAIL_THRESHOLD, OPEN (R5, D19): log 13. -/
opaque Config.mouseFailThreshold : Nat

/-- T_SPEED_PULSE, OPEN ("briefly"), timing only (R5, D7): log 13. -/
opaque Config.tSpeedPulse : Nat

/-- The environment's answer to a `PinRead` when `State.answers` is empty (R47, U16): log 3. -/
opaque Config.freeAnswer : Nat → Bit

/-- `mouse_x` and `mouse_y` after `init` (R18, D24, U7): log 4. -/
opaque Config.freeByte : Nat → Byte

/-- What `pin_dir` shows for an input configured without pull-up, which R70 does not say: log 12. -/
opaque Config.freePinDir : Nat → PinDir

end Sys2Proof
end

