-- ==== Sys2Proof/Machine/Params.lean ====
section
/-! DEFINITION. The parameters of 00_scope.md R5 that have a value, by name, so that a reader who doubts one changes it
in one place. -/

namespace Sys2Proof.Machine

/-- KBD_ID, the expected keyboard ID byte: derived, D10. -/
def kbdId : Byte := 0x78

/-- KBD_EARLY_AFTER, the number of ID dibits after which the early-exit comparison is made: D11, C1. -/
def kbdEarlyAfter : Nat := 2

/-- ID_ONLY, the strap tied to 0 (10_state.md R27). -/
def idOnlyStrap : Bit := false

/-- DEVID_CONTROLLER, `w[15:12]` of a SNES controller. -/
def devIdController : BitVec 4 := 0

/-- DEVID_MOUSE, `w[15:12]` of a mouse. -/
def devIdMouse : BitVec 4 := 8

/-- `w[15:8]` of an NES pad (30_encoding.md R53). -/
def nesMarker : Byte := 0xFF

/-- MOUSE_CENTER. -/
def mouseCenter : Byte := 127

/-- SPEED_SLOW. -/
def speedCodeSlow : BitVec 2 := 0

/-- SPEED_FAST. -/
def speedCodeFast : BitVec 2 := 1

/-- SPEED_MEDIUM. -/
def speedCodeMedium : BitVec 2 := 2

/-- The value of the speed field that is no speed (R60). -/
def speedCodeMalformed : BitVec 2 := 3

/-- RUMBLE_MAGIC, the high byte of the rumble frame. -/
def rumbleMagic : Byte := 0x72

/-- T_DWELL, nominal microseconds. -/
def tDwell : Nat := 12

end Sys2Proof.Machine
end

