-- ==== Sys2Proof/Machine/Operands.lean ====
section
/-! DEFINITION. How values are assembled from bits: 30_encoding.md R52 to R58, 42_demux.md R83, R86, R88.
Pure functions, no state. -/

namespace Sys2Proof.Machine

/-- `v[i] <- b` (00_scope.md R7): the named bit is written, the others stay. -/
def putBit {n : Nat} (v : BitVec n) (i : Nat) (b : Bit) : BitVec n :=
  (v &&& ~~~(BitVec.twoPow n i)) ||| (if b then BitVec.twoPow n i else 0)

/-- `v[2j+1 : 2j] <- d` (R32): data0 supplies the even bit and data1 the odd one. -/
def putDibit {n : Nat} (v : BitVec n) (j : Nat) (d : Dibit) : BitVec n :=
  putBit (putBit v (2 * j) (d.getLsbD 0)) (2 * j + 1) (d.getLsbD 1)

/-- The dibit value `data0 | (data1 << 1)` (R32, R73). -/
def mkDibit (data0 data1 : Bit) : Dibit :=
  putBit (putBit 0 0 data0) 1 data1

/-- `w[15:12]`, the device ID of a data word (R51, R52, R54). -/
def deviceId (w : DataWord) : BitVec 4 := w.extractLsb' 12 4

/-- `w[15:8]`, all ones on an NES pad (R53). -/
def upperByte (w : DataWord) : Byte := w.extractLsb' 8 8

/-- `w[15:0]`, the bits the disconnection check looks at (R81). -/
def lowHalf (w : DataWord) : BitVec 16 := w.extractLsb' 0 16

/-- `w[11:10]`, the mouse speed field (R54). -/
def speedField (w : DataWord) : BitVec 2 := w.extractLsb' 10 2

/-- `w[31:25]`, the X magnitude field (R54). -/
def xField (w : DataWord) : BitVec 7 := w.extractLsb' 25 7

/-- `w[23:17]`, the Y magnitude field (R54). -/
def yField (w : DataWord) : BitVec 7 := w.extractLsb' 17 7

/-- `rev8(x)[i] = x[7 - i]`: the reversal of the 8-bit container (R83). -/
def rev8 (x : Byte) : Byte := x.reverse

/-- `M = rev8(zext_8(F))` (R58 (d)). -/
def magnitude (field : BitVec 7) : Byte := rev8 (field.zeroExtend 8)

/-- The narrowing of an exact coordinate into its 8-bit register, kept replaceable (R86, R88 (c), D15, U13):
the residue mod 256. -/
def narrowCoord (v : Int) : Byte := BitVec.ofInt 8 v

/-- `127 + M * P` for sign 0, `127 - M * P` for sign 1, exact and then narrowed (R58 (e), R86). -/
def mouseCoord (precision : Nat) (field : BitVec 7) (sign : Bit) : Byte :=
  let v : Int := (magnitude field).toNat * precision
  narrowCoord (if sign then mouseCenter.toNat - v else mouseCenter.toNat + v)

/-- The mouse speed a 2-bit field stands for: 3 is replaced by 0 (R58 (c), R60). -/
def clampSpeed (field : BitVec 2) : BitVec 2 :=
  if field = speedCodeMalformed then speedCodeSlow else field

/-- The scaling of a rumble operand: `x >> 4`, 4 bits (R58 (g), R88 (d)). -/
def scaleRumble (x : Byte) : BitVec 4 := (x >>> 4).truncate 4

/-- `0x7200 | (right << 4) | left` (R57, R88 (e)). -/
def mkRumbleFrame (right left : BitVec 4) : BitVec 16 :=
  (rumbleMagic.zeroExtend 16 <<< 8) ||| (right.zeroExtend 16 <<< 4) ||| left.zeroExtend 16

/-- `(id << 2) & 0xFF`, the ID of the early exit (R88 (h), R90). -/
def earlyId (id : Byte) : Byte := id <<< 2

/-- The partial ID that takes the early exit: `KBD_ID >> 2` (R61, R90). -/
def earlyPartial : Byte := kbdId >>> 2

/-- The other ID that a tracked keyboard may answer: `KBD_ID + 1` (R61, R91). -/
def kbdIdGlitch : Byte := kbdId + 1

end Sys2Proof.Machine
end

