-- ==== Sys2Proof/Machine/Flags.lean ====
section
/-! DEFINITION. Every condition the block computes from bits and registers (45_control_and_system.md R98), and the one
flag that is computed, `kbd_valid` (10_state.md R20). Pure functions, no state.
The block has no condition codes (R20). -/

namespace Sys2Proof.Machine

/-- Row 1 of R59: `w[15:0] = 0`. -/
def matchesDisconnected (w : DataWord) : Bool := lowHalf w = 0

/-- Row 3 of R59: `w[15:12] = 0`. -/
def matchesController (w : DataWord) : Bool := deviceId w = devIdController

/-- The pattern of row 4 of R59: `w[15:8] = 0xFF`. -/
def matchesNesMarker (w : DataWord) : Bool := upperByte w = nesMarker

/-- Row 4 of R59 with its side condition: the raw word `~w` is not zero (D9). -/
def matchesNes (w : DataWord) : Bool := ~~~w ≠ 0 && matchesNesMarker w

/-- Row 5 of R59: `w[15:12] = 8`. -/
def matchesMouse (w : DataWord) : Bool := deviceId w = devIdMouse

/-- The disconnection check, step 6 of `read` (R81): all three conditions are needed. -/
def isDisconnected (k hint : Bit) (w : DataWord) : Bool := !k && hint && matchesDisconnected w

/-- The four tests of `classify`, in order (R82). -/
def classifyWord (w : DataWord) (k : Bit) : DeviceType :=
  if k then .keyboard
  else if matchesController w then .controller
  else if matchesNes w then .nes
  else if matchesMouse w then .mouse
  else .none

/-- Whether the data word is longer than 16 bits: the 16th sample is `r[15]`, on the wire level (R36, R65 (a)). -/
def longFrame (r : DataWord) : Bool := !r.getLsbD 15

/-- Whether `latch_and_prime` emits the mouse speed request (R71, D18). -/
def speedRequested (t : DeviceType) (speed : BitVec 2) (fails threshold : Nat) : Bool :=
  t = .mouse && speed ≠ speedCodeFast && fails < threshold

/-- Whether a mouse reading of clamped speed `s` counts as stagnant and still increments the counter (R87). -/
def stagnant (s stored : BitVec 2) (fails threshold : Nat) : Bool :=
  s ≠ speedCodeFast && s = stored && fails < threshold

/-- Whether the ID loop stops early after dibit `j` (counted from 0) with the partial `id` (R90). -/
def earlyExit (earlyAfter j : Nat) (id : Byte) : Bool := j + 1 = earlyAfter && id = earlyPartial

/-- The ID after the self-heal, step 5 of the sub-read (R91). -/
def healId (t : DeviceType) (id : Byte) : Byte := if t = .keyboard ∧ id = kbdIdGlitch then kbdId else id

/-- `kbd_valid` and the result of the sub-read: the final ID matched exactly (R89 step 8). -/
def idValid (id : Byte) : Bit := id = kbdId

/-- Whether scancodes are shifted, step 6 of the sub-read, on the ID after the heal (R89). -/
def payloadFollows (idOnly : Bit) (count : BitVec 4) (id : Byte) : Bool := !idOnly && count ≠ 0 && idValid id

/-- Whether a rumble setting equals the stored one, so that `set_rumble` is a no-op (R94). -/
def rumbleRedundant (left right storedLeft storedRight : BitVec 4) : Bool :=
  left = storedLeft && right = storedRight

/-- The next value of `rumble_cursor`: one step down the ring of 16 (R72, R88 (f)). -/
def nextCursor (cursor : BitVec 4) : BitVec 4 := if cursor = 0 then 15 else cursor - 1

/-- The value of `pin_dir` that `PinConfig` writes (R70).
The rule names none for an input without pull-up: there `free` stands (log 12). -/
def configuredDir (dir : Dir) (pull : Bit) (free : PinDir) : PinDir :=
  match dir, pull with
  | .output, _ => .output
  | .input, true => .inputPullUp
  | .input, false => free

end Sys2Proof.Machine
end

