-- ==== Sys2Proof/WellFormed.lean ====
section
/-! DEFINITION. Which terms of `Instr` are rows of the table: a row that carries the word it matched must match the row's
pattern, `(w & mask) = match` (30_encoding.md R59).
Pin operands are exact in their types, and every other operand is admitted at every value. -/

namespace Sys2Proof

open Sys2Proof.Machine

/-- The well-formed instructions: every operand is one the row's encoding admits. -/
def WellFormed : Instr → Bool
  | .classifyDisconnected w => matchesDisconnected w
  | .classifyController w => matchesController w
  | .classifyNes w => matchesNes w
  | .classifyMouse w => matchesMouse w
  | .classifyUnknown w => !matchesController w && !matchesNes w && !matchesMouse w
  | .demuxController w => matchesController w
  | .demuxNes w => matchesNesMarker w
  | .demuxMouse w => matchesMouse w
  | .init | .begin | .start | .poll | .setCapsLockLed _ | .setRumble _ _ | .reserved67 | .reserved8F
  | .classifyKeyboard _ | .speedSlow | .speedFast | .speedMedium | .speedMalformed
  | .kbdIdMatch | .kbdIdHeal | .kbdIdEarly | .kbdPacket _ _ | .rumbleFrame _ _
  | .latchAndPrime | .shiftBit _ | .shiftDibit | .read | .classify _ _ | .mouseSpeedUpdate _ | .rev8 _
  | .kbdSubread _ | .pinWrite _ _ | .pinRead _ | .delay _ | .pinConfig _ _ _ => true

end Sys2Proof
end

