-- ==== Sys2Proof/Decode.lean ====
section
/-! DEFINITION. The decoder, from a frame of the table's formats to the row it is, and after it the encoder, from the same
tables (30_encoding.md R59, R60, R61, R62).
Micro-operations have no encoding (R63): the decoder never answers one.
The host's command word is total: every command decodes to one of the eight CMD20 rows. -/

namespace Sys2Proof

open Sys2Proof.Machine

/-- Why a frame of an internal format is no row of the table, with what was read.
None of these stops the block: each has the silent outcome of 30_encoding.md R64, `silently` in Machine/Decoder.lean (log 2). -/
inductive DecodeError where
  /-- The 8-bit keyboard ID is neither 0x78 nor 0x79: a mismatch (R61). -/
  | notAKeyboardId (id : Byte)
  /-- The 6-bit partial ID is not 0x1E: no early exit (R61, R90). -/
  | notAnEarlyPartial (partialId : BitVec 6)
  /-- The high byte of the 16 bits is not 0x72 (R57). -/
  | notARumbleFrame (frame : BitVec 16)
  /-- The word does not match the pattern of the demultiplexer, or the device type has none (R79, R84, R85, R86). -/
  | noDemultiplexer (t : DeviceType) (w : DataWord)
deriving DecidableEq, Repr

/-- The command word (R62): `cmd[19:16] = op`, `cmd[15:8] = a`, `cmd[7:0] = b`; unused operand bits are ignored. -/
def decodeCommand (cmd : Command) : Instr :=
  let op := cmd.extractLsb' 16 4
  let a := cmd.extractLsb' 8 8
  let b := cmd.extractLsb' 0 8
  if op = 0x0 then .init
  else if op = 0x1 then .begin
  else if op = 0x2 then .start
  else if op = 0x3 then .poll
  else if op = 0x4 then .setCapsLockLed (b.getLsbD 0)
  else if op = 0x5 then .setRumble a b
  else if op = 0x6 ∨ op = 0x7 then .reserved67
  else .reserved8F

/-- The priority decode of a data word (R59): the first row that applies wins. -/
def decodeDataWord (k hint : Bit) (w : DataWord) : Instr :=
  if isDisconnected k hint w then .classifyDisconnected w
  else if k then .classifyKeyboard w
  else if matchesController w then .classifyController w
  else if matchesNes w then .classifyNes w
  else if matchesMouse w then .classifyMouse w
  else .classifyUnknown w

/-- The demultiplexer a device type selects (R79). -/
def decodeDemux (t : DeviceType) (w : DataWord) : Except DecodeError Instr :=
  match t with
  | .controller => if matchesController w then .ok (.demuxController w) else .error (.noDemultiplexer t w)
  | .nes => if matchesNesMarker w then .ok (.demuxNes w) else .error (.noDemultiplexer t w)
  | .mouse => if matchesMouse w then .ok (.demuxMouse w) else .error (.noDemultiplexer t w)
  | .keyboard | .none => .error (.noDemultiplexer t w)

/-- The mouse speed field (R60). -/
def decodeSpeed (field : BitVec 2) : Instr :=
  if field = speedCodeSlow then .speedSlow
  else if field = speedCodeFast then .speedFast
  else if field = speedCodeMedium then .speedMedium
  else .speedMalformed

/-- The keyboard ID byte (R61). -/
def decodeKbdId (id : Byte) : Except DecodeError Instr :=
  if id = kbdId then .ok .kbdIdMatch
  else if id = kbdIdGlitch then .ok .kbdIdHeal
  else .error (.notAKeyboardId id)

/-- The decoder, total on every frame. -/
def decode : Frame → Except DecodeError Instr
  | .command cmd => .ok (decodeCommand cmd)
  | .dataWord k hint w => .ok (decodeDataWord k hint w)
  | .demux t w => decodeDemux t w
  | .mouseSpeed field => .ok (decodeSpeed field)
  | .kbdId id => decodeKbdId id
  | .kbdPartial p => if p.zeroExtend 8 = earlyPartial then .ok .kbdIdEarly else .error (.notAnEarlyPartial p)
  | .kbdPacket h => .ok (.kbdPacket (h.extractLsb' 0 8) (h.extractLsb' 8 4))
  | .rumble f =>
    if f.extractLsb' 8 8 = rumbleMagic then .ok (.rumbleFrame (f.extractLsb' 4 4) (f.extractLsb' 0 4))
    else .error (.notARumbleFrame f)

/-- A command word from its three fields (R62). -/
def mkCommand (op : BitVec 4) (a b : Byte) : Command := op ++ a ++ b

/-- The frame of an instruction that has one, unused operand bits 0.
The reserved rows are written with their lowest op code. -/
def encode : Instr → Option Frame
  | .init => some (.command (mkCommand 0x0 0 0))
  | .begin => some (.command (mkCommand 0x1 0 0))
  | .start => some (.command (mkCommand 0x2 0 0))
  | .poll => some (.command (mkCommand 0x3 0 0))
  | .setCapsLockLed flag => some (.command (mkCommand 0x4 0 (if flag then 1 else 0)))
  | .setRumble left right => some (.command (mkCommand 0x5 left right))
  | .reserved67 => some (.command (mkCommand 0x6 0 0))
  | .reserved8F => some (.command (mkCommand 0x8 0 0))
  | .classifyDisconnected w => some (.dataWord false true w)
  | .classifyKeyboard w => some (.dataWord true false w)
  | .classifyController w => some (.dataWord false false w)
  | .classifyNes w => some (.dataWord false false w)
  | .classifyMouse w => some (.dataWord false false w)
  | .classifyUnknown w => some (.dataWord false false w)
  | .demuxController w => some (.demux .controller w)
  | .demuxNes w => some (.demux .nes w)
  | .demuxMouse w => some (.demux .mouse w)
  | .speedSlow => some (.mouseSpeed speedCodeSlow)
  | .speedFast => some (.mouseSpeed speedCodeFast)
  | .speedMedium => some (.mouseSpeed speedCodeMedium)
  | .speedMalformed => some (.mouseSpeed speedCodeMalformed)
  | .kbdIdMatch => some (.kbdId kbdId)
  | .kbdIdHeal => some (.kbdId kbdIdGlitch)
  | .kbdIdEarly => some (.kbdPartial (earlyPartial.truncate 6))
  | .kbdPacket id count => some (.kbdPacket (count ++ id))
  | .rumbleFrame right left => some (.rumble (rumbleMagic ++ right ++ left))
  | .latchAndPrime | .shiftBit _ | .shiftDibit | .read | .classify _ _ | .mouseSpeedUpdate _ | .rev8 _
  | .kbdSubread _ | .pinWrite _ _ | .pinRead _ | .delay _ | .pinConfig _ _ _ => none

/-- The frame a bare word of the opcode table stands for, told by its length in bits and its value (log 2): more than 24 bits
a data word, taken with `k = 0` and `hint = 1`; 17 to 24 bits a host command (20 bits in whole bytes); 9 to 16 bits a keyboard
packet header where the value has 12 bits and a rumble frame otherwise; up to 8 bits a mouse speed field where the value
is below 4, the early partial ID where it is that, and a keyboard ID otherwise. -/
def frameOfTableWord (nbits w : Nat) : Frame :=
  if nbits ≤ 8 then
    if w < 4 then .mouseSpeed (BitVec.ofNat 2 w)
    else if w = earlyPartial.toNat then .kbdPartial (BitVec.ofNat 6 w)
    else .kbdId (BitVec.ofNat 8 w)
  else if nbits ≤ 16 then
    if w < 4096 then .kbdPacket (BitVec.ofNat 12 w)
    else .rumble (BitVec.ofNat 16 w)
  else if nbits ≤ 24 then .command (BitVec.ofNat 20 w)
  else .dataWord false true (BitVec.ofNat 32 w)

/-- The instruction the decoder reads from a word numbered as spec/opcode_table.json numbers it. -/
def decodeTableWord (nbits w : Nat) : Option Instr :=
  match decode (frameOfTableWord nbits w) with
  | .ok i => some i
  | .error _ => none

end Sys2Proof
end

