-- ==== Sys2Proof/Machine/State.lean ====
section
/-! DEFINITION. The state of one bus instance (10_state.md R10), plain data, its reset value (R28, R117), and the
reasons a step can stop. The block has no memory (R23): `kbd.buf` is its only array. -/

namespace Sys2Proof.Machine

/-- `phase` (10_state.md R12). -/
inductive Phase where
  | uninitialized | running
deriving DecidableEq, Repr

/-- `pin_out[p]`: the level last written, `unwritten` before the first write (10_state.md R24, D5). -/
inductive PinLevel where
  | unwritten
  | driven (level : Bit)
deriving DecidableEq, Repr

/-- ControllerState: twelve independent 1-bit registers, 1 means pressed (10_state.md R17). -/
structure ControllerState where
  up : Bit
  down : Bit
  left : Bit
  right : Bit
  btnA : Bit
  btnB : Bit
  btnX : Bit
  btnY : Bit
  btnL : Bit
  btnR : Bit
  btnStart : Bit
  btnSelect : Bit
deriving DecidableEq, Repr

/-- MouseState: coordinates, last reported speed, stagnant-reading counter (10_state.md R15, R16, R18). -/
structure MouseState where
  x : Byte
  y : Byte
  speed : BitVec 2
  fails : Nat
deriving DecidableEq, Repr

/-- KeyboardState: scancode buffer, its length, and the two flags (10_state.md R19, R20). -/
structure KeyboardState where
  buf : Vector Byte 16
  len : BitVec 4
  valid : Bit
  capsLock : Bit
deriving DecidableEq, Repr

/-- RumbleState (10_state.md R20, R21). -/
structure RumbleState where
  left : BitVec 4
  right : BitVec 4
  frame : BitVec 16
  cursor : BitVec 4
  active : Bit
deriving DecidableEq, Repr

/-- Pin state on the collaborator's side (10_state.md R24). -/
structure PinState where
  clkDir : PinDir
  latchDir : PinDir
  ioDir : PinDir
  d0Dir : PinDir
  d1Dir : PinDir
  clkOut : PinLevel
  latchOut : PinLevel
  ioOut : PinLevel
deriving DecidableEq, Repr

/-- One event of an operation's trace (20_memory.md R42). -/
inductive Event where
  /-- `C(p, dir)`. -/
  | config (pin : Pin) (dir : PinDir)
  /-- `W(p, v)`. -/
  | write (pin : OutPin) (level : Bit)
  /-- `R(p) = v`. -/
  | read (pin : InPin) (answer : Bit)
  /-- `D(n)`. -/
  | delay (micros : Nat)
deriving DecidableEq, Repr

/-- The value a micro-operation returned (00_scope.md R9). The model's own (log 6). -/
inductive Ret where
  | none
  | bit (value : Bit)
  | dibit (value : Dibit)
  | byte (value : Byte)
  | word (value : DataWord)
  | device (value : DeviceType)
deriving DecidableEq, Repr

/-- The whole state of one bus instance.
`trace` is the event trace of the operation (20_memory.md R42).
The last four fields are the model's own: `ret` the value a micro-operation returned (log 6), `inbox` the operations
issued and not yet run, oldest first (log 1), `answers` the environment's answers to come, oldest first (log 3), and
`freeIdx` the number of free values drawn (log 5). -/
structure State where
  phase : Phase
  devType : DeviceType
  pad : ControllerState
  mouse : MouseState
  kbd : KeyboardState
  rumble : RumbleState
  pins : PinState
  trace : List Event
  ret : Ret
  inbox : List Frame
  answers : List Bit
  freeIdx : Nat
deriving DecidableEq, Repr

/-- The twelve registers of ControllerState at 0 (R17, R28). -/
def ControllerState.released : ControllerState :=
  ⟨false, false, false, false, false, false, false, false, false, false, false, false⟩

/-- KeyboardState after `init` (R28). -/
def KeyboardState.reset : KeyboardState := ⟨Vector.replicate 16 0, 0, false, false⟩

/-- RumbleState after `init` (R28, D23). -/
def RumbleState.reset : RumbleState := ⟨0, 0, 0x7200, 15, false⟩

/-- The pins at power-on: Unconfigured and Unwritten (R28, R117 (a)). -/
def PinState.powerOn : PinState :=
  ⟨.unconfigured, .unconfigured, .unconfigured, .unconfigured, .unconfigured, .unwritten, .unwritten, .unwritten⟩

/-- The power-on state (70_reset_and_hazards.md R117 (a), 10_state.md R28).
The spec leaves `mouse.x` and `mouse.y` unspecified: 0 here is the model's choice (DESIGN CHOICE, log 4). -/
def State.reset : State where
  phase := .uninitialized
  devType := .none
  pad := .released
  mouse := ⟨0, 0, 0, 0⟩
  kbd := .reset
  rumble := .reset
  pins := .powerOn
  trace := []
  ret := .none
  inbox := []
  answers := []
  freeIdx := 0

/-- The reasons a step can fault: none, the block raises nothing (60_exceptions.md R104).
Nobody raises a fault, and that is safe: no claim can rest on one. -/
inductive Fault where
deriving DecidableEq, Repr

/-- The reasons a step is given no meaning. -/
inductive Refusal where
  /-- Raised by `exec`, for an instruction that has no meaning yet. Safe: nothing is claimed of it. -/
  | notModelled (mnemonic : String)
  /-- Raised by START and POLL while `phase = Uninitialized`: "the model gives them no meaning" (41_decoder.md R77).
  Safe: nothing is claimed of the state afterwards. -/
  | notBegun
  /-- Raised by RESERVED_6_7 and RESERVED_8_F: "command codes 0x6 to 0xF are refused" (30_encoding.md R64 (e)).
  Safe: nothing is claimed of the state afterwards. -/
  | reservedCommand
deriving DecidableEq, Repr

end Sys2Proof.Machine
end

