-- ==== Sys2Proof/Machine/Ops.lean ====
section
/-! DEFINITION. The named operations every meaning is built from: the event trace, the environment's answers, the four
access primitives (40_bus_transport.md R67 to R70), the fetch of the next issued operation, and what stands where an
exception entry would: re-detection is `redetect` in Machine/Decoder.lean, since it makes a read cycle
(60_exceptions.md R108, R109). -/

namespace Sys2Proof.Machine

/-- A next state, in the outcome type of the host. -/
abbrev Result := Host.Outcome State Fault Refusal

/-- Appends one event to the trace of the operation in progress (20_memory.md R42). -/
def State.emit (s : State) (e : Event) : State := { s with trace := s.trace ++ [e] }

/-- A host operation begins: its trace is empty and it returns no value (R42, R104). -/
def State.beginOp (s : State) : State := { s with trace := [], ret := .none }

/-- `return v` of a micro-operation issued on its own (00_scope.md R9; log 6). -/
def State.returning (s : State) (v : Ret) : State := { s with ret := v }

/-- The environment's next answer, a free value when none is listed (20_memory.md R47; log 3). -/
def State.answer (s : State) : Bit :=
  match s.answers with
  | b :: _ => b
  | [] => Config.freeAnswer s.freeIdx

/-- The state once the next answer has been consumed (R47; log 3). -/
def State.dropAnswer (s : State) : State :=
  match s.answers with
  | _ :: rest => { s with answers := rest }
  | [] => { s with freeIdx := s.freeIdx + 1 }

/-- `pin_out[p] <- v` (R67). -/
def PinState.setOut (p : PinState) (pin : OutPin) (v : Bit) : PinState :=
  match pin with
  | .clk => { p with clkOut := .driven v }
  | .latch => { p with latchOut := .driven v }
  | .io => { p with ioOut := .driven v }

/-- `pin_out[p]` (10_state.md R24). -/
def PinState.out (p : PinState) : OutPin → PinLevel
  | .clk => p.clkOut
  | .latch => p.latchOut
  | .io => p.ioOut

/-- `pin_dir[p] <- d` (R70). -/
def PinState.setDir (p : PinState) (pin : Pin) (d : PinDir) : PinState :=
  match pin with
  | .clk => { p with clkDir := d }
  | .latch => { p with latchDir := d }
  | .io => { p with ioDir := d }
  | .d0 => { p with d0Dir := d }
  | .d1 => { p with d1Dir := d }

/-- `pin_dir[p]` (10_state.md R24). -/
def PinState.dir (p : PinState) : Pin → PinDir
  | .clk => p.clkDir
  | .latch => p.latchDir
  | .io => p.ioDir
  | .d0 => p.d0Dir
  | .d1 => p.d1Dir

/-- `PinWrite(p, v)` (R67): performed even when the level is already driven. -/
def pinWrite (pin : OutPin) (v : Bit) (s : State) : State :=
  { s with pins := s.pins.setOut pin v }.emit (.write pin v)

/-- `PinRead(p)` (R68): the answer, the pin's electrical level, and the state after. -/
def pinRead (pin : InPin) (s : State) : Bit × State :=
  (s.answer, s.dropAnswer.emit (.read pin s.answer))

/-- `Delay(n)` (R69). -/
def delay (micros : Nat) (s : State) : State := s.emit (.delay micros)

/-- `PinConfig(p, dir, pull)` (R70).
An input without pull-up draws a free direction (log 12). -/
def pinConfig (pin : Pin) (dir : Dir) (pull : Bit) (s : State) : State :=
  let d := configuredDir dir pull (Config.freePinDir s.freeIdx)
  let used := if dir = .input ∧ pull = false then 1 else 0
  { s with pins := s.pins.setDir pin d, freeIdx := s.freeIdx + used }.emit (.config pin d)

/-- The next operation the host issued, and the state with it taken (70_reset_and_hazards.md R119; log 1). -/
def State.fetch (s : State) : Option (Frame × State) :=
  match s.inbox with
  | [] => none
  | f :: rest => some (f, { s with inbox := rest })

/-- Issues a frame, to be fetched by the very next step (log 1). -/
def State.issue (s : State) (f : Frame) : State := { s with inbox := f :: s.inbox }

end Sys2Proof.Machine
end

