-- ==== Sys2Proof/Machine/Demux.lean ====
section
/-! DEFINITION. Demultiplexers and mouse decoding, 42_demux.md R83 to R87, and the meanings of their rows. -/

namespace Sys2Proof.Machine

/-- `demux_controller(w)` (R84): twelve bits of `w` into the twelve registers. -/
def demuxController (w : DataWord) (s : State) : State :=
  { s with pad :=
    { btnB := w.getLsbD 0, btnY := w.getLsbD 1, btnSelect := w.getLsbD 2, btnStart := w.getLsbD 3,
      up := w.getLsbD 4, down := w.getLsbD 5, left := w.getLsbD 6, right := w.getLsbD 7,
      btnA := w.getLsbD 8, btnX := w.getLsbD 9, btnL := w.getLsbD 10, btnR := w.getLsbD 11 } }

/-- `demux_nes(w)` (R85): eight registers; X, Y, L and R keep their values (D16). -/
def demuxNes (w : DataWord) (s : State) : State :=
  { s with pad :=
    { s.pad with
      btnA := w.getLsbD 0, btnB := w.getLsbD 1, btnSelect := w.getLsbD 2, btnStart := w.getLsbD 3,
      up := w.getLsbD 4, down := w.getLsbD 5, left := w.getLsbD 6, right := w.getLsbD 7 } }

/-- `demux_mouse(w)` (R86): two buttons, and both coordinates computed afresh from 127. -/
def demuxMouse (w : DataWord) (s : State) : State :=
  { s with
    pad := { s.pad with btnB := w.getLsbD 8, btnA := w.getLsbD 9 }
    mouse := { s.mouse with
      x := mouseCoord Config.mousePrecision (xField w) (w.getLsbD 24)
      y := mouseCoord Config.mousePrecision (yField w) (w.getLsbD 16) } }

/-- The speed update for a 2-bit speed field and a threshold (R87): clamp first, then the stagnation test against the
stored speed (D18, D30). -/
def updateSpeed (threshold : Nat) (field : BitVec 2) (m : MouseState) : MouseState :=
  let s := clampSpeed field
  { m with
    speed := s
    fails := if stagnant s m.speed m.fails threshold then m.fails + 1 else m.fails }

/-- `mouse_speed_update` on the speed field (R87). -/
def speedUpdate (field : BitVec 2) (s : State) : State :=
  { s with mouse := updateSpeed Config.mouseFailThreshold field s.mouse }

/-- `mouse_speed_update(w)` (R87). -/
def mouseSpeedUpdate (w : DataWord) (s : State) : State := speedUpdate (speedField w) s

/-- DEMUX_CONTROLLER (R84). -/
def execDemuxController (w : DataWord) (s : State) : Result := .next (demuxController w s)

/-- DEMUX_NES (R85). -/
def execDemuxNes (w : DataWord) (s : State) : Result := .next (demuxNes w s)

/-- DEMUX_MOUSE (R86). -/
def execDemuxMouse (w : DataWord) (s : State) : Result := .next (demuxMouse w s)

/-- SPEED_SLOW (R60, R87). -/
def execSpeedSlow (s : State) : Result := .next (speedUpdate speedCodeSlow s)

/-- SPEED_FAST (R60, R87): no stagnant count. -/
def execSpeedFast (s : State) : Result := .next (speedUpdate speedCodeFast s)

/-- SPEED_MEDIUM (R60, R87). -/
def execSpeedMedium (s : State) : Result := .next (speedUpdate speedCodeMedium s)

/-- SPEED_MALFORMED (R60, R87): clamped, stored 0. -/
def execSpeedMalformed (s : State) : Result := .next (speedUpdate speedCodeMalformed s)

/-- mouse_speed_update (R87). -/
def execMouseSpeedUpdate (w : DataWord) (s : State) : Result := .next (mouseSpeedUpdate w s)

/-- rev8 (R83). -/
def execRev8 (x : Byte) (s : State) : Result := .next (s.returning (.byte (rev8 x)))

end Sys2Proof.Machine
end

