-- ==== Sys2Proof/Machine/Transport.lean ====
section
/-! DEFINITION. Bus Transport, 40_bus_transport.md: `latch_and_prime`, `shift_bit`, `shift_dibit`, and the meanings of the
seven transport rows of the table. -/

namespace Sys2Proof.Machine

/-- The mouse speed request, a clock pulse while latch is high (R71, D7). -/
def speedRequest (s : State) : State :=
  pinWrite .clk true (delay Config.tSpeedPulse (pinWrite .clk false s))

/-- `latch_and_prime()` (R71). -/
def latchAndPrime (s : State) : State :=
  let s1 := delay tDwell (pinWrite .latch true s)
  let s2 :=
    if speedRequested s.devType s.mouse.speed s.mouse.fails Config.mouseFailThreshold then speedRequest s1 else s1
  delay tDwell (pinWrite .latch false s2)

/-- The outbound rumble bit of `shift_bit`, and the step of the cursor, only while the channel is active (R72, R95). -/
def sendRumbleBit (s : State) : State :=
  if s.rumble.active then
    let s1 := pinWrite .io (s.rumble.frame.getLsbD s.rumble.cursor.toNat) s
    { s1 with rumble := { s1.rumble with cursor := nextCursor s1.rumble.cursor } }
  else s

/-- `shift_bit(pin)` (R72): the wire level sampled at the end of the low phase, and the state after. -/
def shiftBit (pin : InPin) (s : State) : Bit × State :=
  let low := delay tDwell (pinWrite .clk false (sendRumbleBit s))
  let b := pinRead pin low
  (b.1, delay tDwell (pinWrite .clk true b.2))

/-- `shift_dibit()` (R73): `data0 | (data1 << 1)`, and the state after. No rumble bit and no cursor step (D14). -/
def shiftDibit (s : State) : Dibit × State :=
  let low := delay tDwell (pinWrite .clk false s)
  let b0 := pinRead .d0 low
  let b1 := pinRead .d1 b0.2
  (mkDibit b0.1 b1.1, delay tDwell (pinWrite .clk true b1.2))

/-- PinWrite (R67). -/
def execPinWrite (pin : OutPin) (level : Bit) (s : State) : Result := .next (pinWrite pin level s)

/-- PinRead (R68). -/
def execPinRead (pin : InPin) (s : State) : Result :=
  .next ((pinRead pin s).2.returning (.bit (pinRead pin s).1))

/-- Delay (R69). -/
def execDelay (micros : Nat) (s : State) : Result := .next (delay micros s)

/-- PinConfig (R70). -/
def execPinConfig (pin : Pin) (dir : Dir) (pull : Bit) (s : State) : Result := .next (pinConfig pin dir pull s)

/-- latch_and_prime (R71). -/
def execLatchAndPrime (s : State) : Result := .next (latchAndPrime s)

/-- shift_bit (R72). -/
def execShiftBit (pin : InPin) (s : State) : Result :=
  .next ((shiftBit pin s).2.returning (.bit (shiftBit pin s).1))

/-- shift_dibit (R73). -/
def execShiftDibit (s : State) : Result :=
  .next ((shiftDibit s).2.returning (.dibit (shiftDibit s).1))

end Sys2Proof.Machine
end

