-- ==== Sys2Proof/Machine/Keyboard.lean ====
section
/-! DEFINITION. The keyboard sub-protocol, 43_keyboard.md: the sub-read in three stages (the ID, the rest after the ID, the
rest after the packet header), `set_caps_lock_led`, and the meanings of the keyboard rows of the table.
A row that is a pattern of the sub-read means the rest of the sub-read from where the pattern is recognised (log 8). -/

namespace Sys2Proof.Machine

/-- `k` dibits into the value `v` from dibit `j` on: `v[2j+1 : 2j] <- shift_dibit()` (R32, R89). -/
def shiftDibits {n : Nat} : (k j : Nat) → BitVec n → State → BitVec n × State
  | 0, _, v, s => (v, s)
  | k + 1, j, v, s =>
    let d := shiftDibit s
    shiftDibits k (j + 1) (putDibit v j d.1) d.2

/-- The ID loop, step 2 of R89, with the ID-only write and the early exit of R90: `k` dibits from dibit `j` on. -/
def shiftId (earlyAfter : Nat) (idOnly : Bit) : (k j : Nat) → Byte → State → Byte × State
  | 0, _, id, s => (id, s)
  | k + 1, j, id, s =>
    let d := shiftDibit s
    let id1 := putDibit id j d.1
    let s1 := if j = 0 ∧ idOnly = true then pinWrite .io true d.2 else d.2
    if earlyExit earlyAfter j id1 then (earlyId id1, s1)
    else shiftId earlyAfter idOnly k (j + 1) id1 s1

/-- The payload loop, step 6 of R89: `m` scancode bytes from index `n` on, each of four dibits. -/
def shiftPayload : (m n : Nat) → State → State
  | 0, _, s => s
  | m + 1, n, s =>
    let b := shiftDibits 4 0 (0 : Byte) s
    shiftPayload m (n + 1) { b.2 with kbd := { b.2.kbd with buf := b.2.kbd.buf.setIfInBounds n b.1 } }

/-- Step 6 of R89 on the healed ID: the scancodes and their count. -/
def readPayload (idOnly : Bit) (count : BitVec 4) (id : Byte) (s : State) : State :=
  if payloadFollows idOnly count id then
    let s1 := shiftPayload count.toNat 0 s
    { s1 with kbd := { s1.kbd with len := count } }
  else s

/-- Steps 5 to 8 of R89, given the ID and the count as shifted: heal, payload, I/O line high, `kbd_valid`. -/
def afterHeader (idOnly : Bit) (id : Byte) (count : BitVec 4) (s : State) : Bit × State :=
  let id1 := healId s.devType id
  let s1 := pinWrite .io true (readPayload idOnly count id1 s)
  (idValid id1, { s1 with kbd := { s1.kbd with valid := idValid id1 } })

/-- Steps 3 to 8 of R89, given the ID as shifted: the caps-lock edge, the count, and the rest. -/
def afterId (idOnly : Bit) (id : Byte) (s : State) : Bit × State :=
  let s1 := if s.kbd.capsLock then s else pinWrite .io true s
  let c := shiftDibits 2 0 (0 : BitVec 4) s1
  afterHeader idOnly id c.1 c.2

/-- The sub-read from a partial ID of three dibits that took no early exit (R90 (b)): the fourth dibit follows, then the rest. -/
def afterPartial (idOnly : Bit) (partialId : BitVec 6) (s : State) : Bit × State :=
  let id := shiftId kbdEarlyAfter idOnly 1 3 (partialId.zeroExtend 8) s
  afterId idOnly id.1 id.2

/-- The buffer and its length cleared, at the start of every sub-read (R89 (i), D12). -/
def clearScancodes (s : State) : State :=
  { s with kbd := { s.kbd with buf := Vector.replicate 16 0, len := 0 } }

/-- `kbd_subread(id_only)` (R89), with the position of the early exit as an argument (D11). -/
def subread (earlyAfter : Nat) (idOnly : Bit) (s : State) : Bit × State :=
  let s1 := pinWrite .io false (clearScancodes s)
  let id := shiftId earlyAfter idOnly 4 0 0 s1
  afterId idOnly id.1 id.2

/-- The sub-read as this block is configured (R27, R90). -/
def kbdSubread (idOnly : Bit) (s : State) : Bit × State := subread kbdEarlyAfter idOnly s

/-- kbd_subread (R89). -/
def execKbdSubread (idOnly : Bit) (s : State) : Result :=
  .next ((kbdSubread idOnly s).2.returning (.bit (kbdSubread idOnly s).1))

/-- KBD_ID_MATCH (R61, R89): the sub-read goes on from step 3 with `id = KBD_ID`. -/
def execKbdIdMatch (s : State) : Result :=
  let k := afterId idOnlyStrap kbdId s
  .next (k.2.returning (.bit k.1))

/-- KBD_ID_HEAL (R61, R91): the sub-read goes on from step 3 with `id = KBD_ID + 1`, healed in step 5 only while a
keyboard is tracked. -/
def execKbdIdHeal (s : State) : Result :=
  let k := afterId idOnlyStrap kbdIdGlitch s
  .next (k.2.returning (.bit k.1))

/-- KBD_ID_EARLY (R61, R90): the partial ID resolves to `(KBD_ID >> 2) << 2`, the remaining ID dibits are not clocked, and
the sub-read goes on from step 3. -/
def execKbdIdEarly (s : State) : Result :=
  let k := afterId idOnlyStrap (earlyId earlyPartial) s
  .next (k.2.returning (.bit k.1))

/-- KBD_PACKET (R55): the header is complete, and the sub-read goes on from step 5. -/
def execKbdPacket (id : Byte) (count : BitVec 4) (s : State) : Result :=
  let k := afterHeader idOnlyStrap id count s
  .next (k.2.returning (.bit k.1))

/-- Another keyboard ID (R61, R64 (c)): a mismatch, and the sub-read goes on from step 3 with it. -/
def mismatchedId (id : Byte) (s : State) : Result :=
  let k := afterId idOnlyStrap id s
  .next (k.2.returning (.bit k.1))

/-- Another partial ID (R61, R90 (b)): no early exit, and the sub-read goes on with the fourth dibit. -/
def noEarlyExit (partialId : BitVec 6) (s : State) : Result :=
  let k := afterPartial idOnlyStrap partialId s
  .next (k.2.returning (.bit k.1))

/-- SET_CAPS_LOCK_LED (R92): `caps_lock <- flag`, no pin event, in every phase (D25, D29). -/
def execSetCapsLockLed (flag : Bit) (s : State) : Result :=
  let s1 := s.beginOp
  .next { s1 with kbd := { s1.kbd with capsLock := flag } }

end Sys2Proof.Machine
end

