-- ==== Sys2Proof/Machine/Rumble.lean ====
section
/-! DEFINITION. Rumble output, 44_rumble.md R94, R96, and the frame row R57.
The interleave R95 is `sendRumbleBit` in Machine/Transport.lean.
Nothing here clears `rumble.active` (R96). -/

namespace Sys2Proof.Machine

/-- A setting given as two 4-bit intensities: a no-op when both equal the stored ones, and otherwise stored, the frame
rebuilt, the cursor at 15 and the channel active (R94). -/
def loadRumble (right left : BitVec 4) (s : State) : State :=
  if rumbleRedundant left right s.rumble.left s.rumble.right then s
  else { s with rumble :=
    { left := left, right := right, frame := mkRumbleFrame right left, cursor := 15, active := true } }

/-- SET_RUMBLE (R94): both operands scaled to 4 bits, no pin event, in every phase (D29). -/
def execSetRumble (left right : Byte) (s : State) : Result :=
  .next (loadRumble (scaleRumble right) (scaleRumble left) s.beginOp)

/-- RUMBLE_FRAME (R57, R94): the frame with these nibbles becomes the one to send, by the rule of R94 (log 10). -/
def execRumbleFrame (right left : BitVec 4) (s : State) : Result :=
  .next (loadRumble right left s)

end Sys2Proof.Machine
end

