-- ==== Sys2Proof/Machine/Decoder.lean ====
section
/-! DEFINITION. Protocol Decoder, 41_decoder.md: `read` with the disconnection check and the classification, `start`,
`poll`, `init`, `begin`, and the meanings of their rows.
A classification row means the rest of `read` from step 6 on, on a word of its pattern (log 7). -/

namespace Sys2Proof.Machine

/-- `n` samples of data0 into the raw word from bit `i` on: `r[i] <- shift_bit(PIN_D0)` (R31, R80). -/
def sampleBits : (n i : Nat) → DataWord → State → DataWord × State
  | 0, _, r, s => (r, s)
  | n + 1, i, r, s =>
    let b := shiftBit .d0 s
    sampleBits n (i + 1) (putBit r i b.1) b.2

/-- Step 3 of `read` (R36, R80): 16 samples, and 16 more when the 16th was 0. -/
def shiftWord (s : State) : DataWord × State :=
  let short := sampleBits 16 0 0 s
  if longFrame short.1 then sampleBits 16 16 short.1 short.2 else short

/-- The disconnection of step 6 (R81): the state written. -/
def disconnect (s : State) : State :=
  { s with devType := .none, mouse := { s.mouse with fails := 0, speed := 0 } }

/-- Step 7 (R80): the classification is stored. -/
def setDevice (t : DeviceType) (s : State) : State := { s with devType := t }

/-- Steps 6 to 9 of `read` (R80): the disconnection check, the classification, the speed update of a mouse, and the word
returned. -/
def finishRead (k hint : Bit) (w : DataWord) (s : State) : DataWord × State :=
  if isDisconnected k hint w then (0, disconnect s)
  else
    let t := classifyWord w k
    let s1 := setDevice t s
    (w, if t = .mouse then mouseSpeedUpdate w s1 else s1)

/-- `read()` (R80). -/
def readCycle (s : State) : DataWord × State :=
  let hint := pinRead .d0 s
  let r := shiftWord (latchAndPrime hint.2)
  let k := kbdSubread idOnlyStrap r.2
  finishRead k.1 hint.1 (~~~r.1) k.2

/-- The zero and centre defaults that `start` writes when a device was classified (R78, D17). -/
def resetFields (s : State) : State :=
  { s with pad := .released, mouse := { s.mouse with x := mouseCenter, y := mouseCenter } }

/-- The body of `start` after the phase check (R78), which `poll` calls too: re-detection, the block's only recovery
mechanism (60_exceptions.md R108).
Nothing is saved, and it ends when its one read cycle ends (R109). -/
def redetect (s : State) : State :=
  let s1 := (readCycle (setDevice .none s)).2
  if s1.devType = .none then s1 else resetFields s1

/-- The demultiplexer of a device type, on any word; Keyboard and None have none, and nothing is written (R79). -/
def demuxAs (t : DeviceType) (w : DataWord) (s : State) : State :=
  match t with
  | .controller => demuxController w s
  | .nes => demuxNes w s
  | .mouse => demuxMouse w s
  | .keyboard | .none => s

/-- The demultiplexer that `poll` selects by the device type after the read (R79, D26). -/
def demuxByType (w : DataWord) (s : State) : State := demuxAs s.devType w s

/-- The body of `poll` after the phase check (R79). -/
def pollCycle (s : State) : State :=
  if s.devType = .none then redetect s
  else
    let w := readCycle s
    if w.1 = 0 then redetect w.2 else demuxByType w.1 w.2

/-- The phase check (R77): refused, with no meaning given, unless `phase = Running`. -/
def whenRunning (body : State → State) (s : State) : Result :=
  if s.phase = .running then .next (body s.beginOp) else .refused .notBegun

/-- START (R77, R78). -/
def execStart (s : State) : Result := whenRunning redetect s

/-- POLL (R77, R79). -/
def execPoll (s : State) : Result := whenRunning pollCycle s

/-- INIT (R75): every element but the pins takes its value of 10_state.md R28.
`mouse_x` and `mouse_y` are unspecified: two free values (D24; log 4). -/
def execInit (s : State) : Result :=
  .next { s.beginOp with
    phase := .uninitialized
    devType := .none
    pad := .released
    mouse := ⟨Config.freeByte s.freeIdx, Config.freeByte (s.freeIdx + 1), 0, 0⟩
    kbd := .reset
    rumble := .reset
    freeIdx := s.freeIdx + 2 }

/-- The five `PinConfig` calls of `begin`, in order (R76, D22). -/
def configurePins (s : State) : State :=
  let s1 := pinConfig .clk .output false s
  let s2 := pinConfig .latch .output false s1
  let s3 := pinConfig .io .output false s2
  let s4 := pinConfig .d0 .input true s3
  pinConfig .d1 .input true s4

/-- BEGIN (R76): the pins, then `phase <- Running`. -/
def execBegin (s : State) : Result :=
  .next { configurePins s.beginOp with phase := .running }

/-- RESERVED_6_7 (R64 (e)): refused. -/
def execReserved67 (_ : State) : Result := .refused .reservedCommand

/-- RESERVED_8_F (R64 (e)): refused. -/
def execReserved8F (_ : State) : Result := .refused .reservedCommand

/-- read (R80). -/
def execRead (s : State) : Result := .next ((readCycle s).2.returning (.word (readCycle s).1))

/-- classify (R82): reads and writes no state. -/
def execClassify (w : DataWord) (k : Bit) (s : State) : Result := .next (s.returning (.device (classifyWord w k)))

/-- CLASSIFY_DISCONNECTED (R81): the state of a disconnection, and 0 returned. -/
def execClassifyDisconnected (_w : DataWord) (s : State) : Result := .next ((disconnect s).returning (.word 0))

/-- CLASSIFY_KEYBOARD (R82). -/
def execClassifyKeyboard (w : DataWord) (s : State) : Result := .next ((setDevice .keyboard s).returning (.word w))

/-- CLASSIFY_CONTROLLER (R82). -/
def execClassifyController (w : DataWord) (s : State) : Result :=
  .next ((setDevice .controller s).returning (.word w))

/-- CLASSIFY_NES (R82). -/
def execClassifyNes (w : DataWord) (s : State) : Result := .next ((setDevice .nes s).returning (.word w))

/-- CLASSIFY_MOUSE (R82), with step 8 of `read` (R80). -/
def execClassifyMouse (w : DataWord) (s : State) : Result :=
  .next ((mouseSpeedUpdate w (setDevice .mouse s)).returning (.word w))

/-- CLASSIFY_UNKNOWN (R82, R105 AC2): `dev_type <- None`, and the nonzero word returned. -/
def execClassifyUnknown (w : DataWord) (s : State) : Result := .next ((setDevice .none s).returning (.word w))

/-- The silent outcome of a pattern that is no row of the table: "Nothing traps" (30_encoding.md R64).
A mismatched keyboard ID and a partial ID without early exit go on with the sub-read, and a demultiplexer acts on any word.
An outbound frame that is no rumble frame is one the block never forms or receives: nothing is written (log 2). -/
def silently (e : DecodeError) (s : State) : Result :=
  match e with
  | .notAKeyboardId id => mismatchedId id s
  | .notAnEarlyPartial partialId => noEarlyExit partialId s
  | .notARumbleFrame _ => .next s
  | .noDemultiplexer t w => .next (demuxAs t w s)

end Sys2Proof.Machine
end

