-- ==== Sys2Proof/Machine/Dispatch.lean ====
section
/-! DEFINITION. What each instruction does: one arm per row of spec/opcode_table.json. -/

namespace Sys2Proof.Machine

def exec (i : Instr) (s : State) : Host.Outcome State Fault Refusal :=
  match i with
  | .init => Sys2Proof.Machine.execInit s
  | .begin => Sys2Proof.Machine.execBegin s
  | .start => Sys2Proof.Machine.execStart s
  | .poll => Sys2Proof.Machine.execPoll s
  | .setCapsLockLed flag => Sys2Proof.Machine.execSetCapsLockLed flag s
  | .setRumble left right => Sys2Proof.Machine.execSetRumble left right s
  | .reserved67 => Sys2Proof.Machine.execReserved67 s
  | .reserved8F => Sys2Proof.Machine.execReserved8F s
  | .classifyDisconnected w => Sys2Proof.Machine.execClassifyDisconnected w s
  | .classifyKeyboard w => Sys2Proof.Machine.execClassifyKeyboard w s
  | .classifyController w => Sys2Proof.Machine.execClassifyController w s
  | .classifyNes w => Sys2Proof.Machine.execClassifyNes w s
  | .classifyMouse w => Sys2Proof.Machine.execClassifyMouse w s
  | .classifyUnknown w => Sys2Proof.Machine.execClassifyUnknown w s
  | .demuxController w => Sys2Proof.Machine.execDemuxController w s
  | .demuxNes w => Sys2Proof.Machine.execDemuxNes w s
  | .demuxMouse w => Sys2Proof.Machine.execDemuxMouse w s
  | .speedSlow => Sys2Proof.Machine.execSpeedSlow s
  | .speedFast => Sys2Proof.Machine.execSpeedFast s
  | .speedMedium => Sys2Proof.Machine.execSpeedMedium s
  | .speedMalformed => Sys2Proof.Machine.execSpeedMalformed s
  | .kbdIdMatch => Sys2Proof.Machine.execKbdIdMatch s
  | .kbdIdHeal => Sys2Proof.Machine.execKbdIdHeal s
  | .kbdIdEarly => Sys2Proof.Machine.execKbdIdEarly s
  | .kbdPacket id count => Sys2Proof.Machine.execKbdPacket id count s
  | .rumbleFrame right left => Sys2Proof.Machine.execRumbleFrame right left s
  | .latchAndPrime => Sys2Proof.Machine.execLatchAndPrime s
  | .shiftBit pin => Sys2Proof.Machine.execShiftBit pin s
  | .shiftDibit => Sys2Proof.Machine.execShiftDibit s
  | .read => Sys2Proof.Machine.execRead s
  | .classify w k => Sys2Proof.Machine.execClassify w k s
  | .mouseSpeedUpdate w => Sys2Proof.Machine.execMouseSpeedUpdate w s
  | .rev8 x => Sys2Proof.Machine.execRev8 x s
  | .kbdSubread idOnly => Sys2Proof.Machine.execKbdSubread idOnly s
  | .pinWrite pin level => Sys2Proof.Machine.execPinWrite pin level s
  | .pinRead pin => Sys2Proof.Machine.execPinRead pin s
  | .delay micros => Sys2Proof.Machine.execDelay micros s
  | .pinConfig pin dir pull => Sys2Proof.Machine.execPinConfig pin dir pull s

end Sys2Proof.Machine
end

