-- ==== Sys2Proof/Machine/Step.lean ====
section
/-! DEFINITION. One step: the next issued operation is fetched, decoded and run to completion (20_memory.md R43).
With nothing issued the block is idle, its outputs holding their last levels (60_exceptions.md R116,
70_reset_and_hazards.md R117). -/

namespace Sys2Proof.Machine

/-- One step of the machine.
A pattern that is no row has its silent outcome (30_encoding.md R64): the step goes on. -/
def step (s : State) : Host.Outcome State Fault Refusal :=
  match s.fetch with
  | none => .next s
  | some (f, s1) =>
    match decode f with
    | .ok i => exec i s1
    | .error e => silently e s1

/-- The state with an opcode-table word issued, so that the next step fetches and runs it (log 2). -/
def State.withFetchWord (s : State) (nbits w : Nat) : State := s.issue (frameOfTableWord nbits w)

end Sys2Proof.Machine
end

