-- ==== Sys2Proof/Machine/Outputs.lean ====
section
/-! DEFINITION. The host-visible outputs (10_state.md R11): dedicated status outputs, read between operations. -/

namespace Sys2Proof.Machine

/-- The numeric code of a device type on the status port (10_state.md R14, D3). -/
def deviceCode : DeviceType → BitVec 3
  | .none => 0
  | .controller => 1
  | .nes => 2
  | .mouse => 3
  | .keyboard => 4

/-- What the host can read (R11): the device type, the twelve booleans, the mouse coordinates, the scancode sequence
with its length, and the caps-lock flag. -/
structure HostView where
  deviceType : BitVec 3
  buttons : ControllerState
  mouseX : Byte
  mouseY : Byte
  scancodes : List Byte
  scancodeCount : BitVec 4
  capsLock : Bit
deriving DecidableEq, Repr

/-- The outputs of a state (R11). -/
def State.outputs (s : State) : HostView where
  deviceType := deviceCode s.devType
  buttons := s.pad
  mouseX := s.mouse.x
  mouseY := s.mouse.y
  scancodes := s.kbd.buf.toList.take s.kbd.len.toNat
  scancodeCount := s.kbd.len
  capsLock := s.kbd.capsLock

end Sys2Proof.Machine
end

