-- ==== Sys2Proof/Safety.lean ====
section
/-! DEFINITION. The terms the claims are stated in: the environment's answers read as one unending sequence, the frame
formats of 30_encoding.md read directly off that sequence, the traces they leave, and the invariant of a safe state.
Nothing here is part of the machine. -/

namespace Sys2Proof.Machine

/-! ## Rows -/

/-- The rows without an encoding (30_encoding.md R63). -/
def isMicro : Instr → Bool
  | .latchAndPrime | .shiftBit _ | .shiftDibit | .read | .classify _ _ | .mouseSpeedUpdate _ | .rev8 _
  | .kbdSubread _ | .pinWrite _ _ | .pinRead _ | .delay _ | .pinConfig _ _ _ => true
  | .init | .begin | .start | .poll | .setCapsLockLed _ | .setRumble _ _ | .reserved67 | .reserved8F
  | .classifyDisconnected _ | .classifyKeyboard _ | .classifyController _ | .classifyNes _ | .classifyMouse _
  | .classifyUnknown _ | .demuxController _ | .demuxNes _ | .demuxMouse _
  | .speedSlow | .speedFast | .speedMedium | .speedMalformed
  | .kbdIdMatch | .kbdIdHeal | .kbdIdEarly | .kbdPacket _ _ | .rumbleFrame _ _ => false

/-- The CMD20 rows, the only ones the host can issue (R62, R97). -/
def isHostRow : Instr → Bool
  | .init | .begin | .start | .poll | .setCapsLockLed _ | .setRumble _ _ | .reserved67 | .reserved8F => true
  | .classifyDisconnected _ | .classifyKeyboard _ | .classifyController _ | .classifyNes _ | .classifyMouse _
  | .classifyUnknown _ | .demuxController _ | .demuxNes _ | .demuxMouse _
  | .speedSlow | .speedFast | .speedMedium | .speedMalformed
  | .kbdIdMatch | .kbdIdHeal | .kbdIdEarly | .kbdPacket _ _ | .rumbleFrame _ _
  | .latchAndPrime | .shiftBit _ | .shiftDibit | .read | .classify _ _ | .mouseSpeedUpdate _ | .rev8 _
  | .kbdSubread _ | .pinWrite _ _ | .pinRead _ | .delay _ | .pinConfig _ _ _ => false

/-- Whether a frame is a host command. -/
def isCommandFrame : Frame → Bool
  | .command _ => true
  | .dataWord _ _ _ | .demux _ _ | .mouseSpeed _ | .kbdId _ | .kbdPartial _ | .kbdPacket _ | .rumble _ => false

/-! ## The environment's answers as one sequence (20_memory.md R47) -/

/-- The `n`-th answer from now, counted from 0: listed, or free once the list is spent. -/
def State.answerAt (s : State) (n : Nat) : Bit :=
  (s.answers[n]?).getD (Config.freeAnswer (s.freeIdx + (n - s.answers.length)))

/-- The state with `n` answers consumed and nothing else changed. -/
def State.consumed (s : State) (n : Nat) : State :=
  { s with answers := s.answers.drop n, freeIdx := s.freeIdx + (n - s.answers.length) }

/-- The `n`-bit value assembled least significant bit first from the answers from `off` on: bit `m` is the answer
`off + m`. This is the data word of R31, and it is the dibit values of R32, whose even bits are data0 and odd bits
data1, in the order the pins are read. -/
def State.valueAt (s : State) (off : Nat) : (n : Nat) → BitVec n
  | 0 => 0
  | n + 1 => BitVec.cons (s.answerAt (off + n)) (s.valueAt off n)

/-! ## Traces (20_memory.md R42) -/

/-- The events of one `shift_dibit` whose two reads are answered from `off` on (R73). -/
def State.dibitEvents (s : State) (off : Nat) : List Event :=
  [.write .clk false, .delay 12, .read .d0 (s.answerAt off), .read .d1 (s.answerAt (off + 1)), .write .clk true, .delay 12]

/-- The events of `k` consecutive `shift_dibit`s. -/
def State.dibitTrace (s : State) (off k : Nat) : List Event :=
  (List.range k).flatMap fun j => s.dibitEvents (off + 2 * j)

/-- The events of the `i`-th of consecutive `shift_bit`s of data0, the first answered by `off` (R72): a rumble bit first
while the channel is active, the cursor `i` steps further down its ring. -/
def State.sampleEvents (s : State) (off i : Nat) : List Event :=
  (if s.rumble.active then
    [Event.write .io (s.rumble.frame.getLsbD (s.rumble.cursor - BitVec.ofNat 4 i).toNat)] else []) ++
  [.write .clk false, .delay 12, .read .d0 (s.answerAt (off + i)), .write .clk true, .delay 12]

/-- The events of `n` consecutive `shift_bit`s of data0. -/
def State.sampleTrace (s : State) (off n : Nat) : List Event :=
  (List.range n).flatMap fun i => s.sampleEvents off i

/-- Whether a read cycle of this state emits the mouse speed request (R71). -/
def State.requestsSpeed (s : State) : Bool :=
  s.devType = .mouse && s.mouse.speed ≠ 1 && s.mouse.fails < Config.mouseFailThreshold

/-- The events of `latch_and_prime` (R71). -/
def State.latchTrace (s : State) : List Event :=
  [.write .latch true, .delay 12] ++
  (if s.requestsSpeed then [Event.write .clk false, .delay Config.tSpeedPulse, .write .clk true] else []) ++
  [.write .latch false, .delay 12]

/-- The levels written to the I/O pin, in order. -/
def ioLevels (events : List Event) : List Bit :=
  events.filterMap fun e => match e with
    | .write .io v => some v
    | .write .clk _ | .write .latch _ | .config _ _ | .read _ _ | .delay _ => none

/-- The falling clock edges and the levels written to the I/O pin, in order. -/
def pulsesAndIo (events : List Event) : List Event :=
  events.filter fun e => match e with
    | .write .io _ => true
    | .write .clk v => !v
    | .write .latch _ | .config _ _ | .read _ _ | .delay _ => false

/-! ## The keyboard packet (30_encoding.md R55, R61) -/

/-- Whether an ID byte is accepted: 0x78, or 0x79 while a keyboard is tracked (R61, R91). -/
def idAccepted (t : DeviceType) (id : Byte) : Bool := id = 0x78 || (id = 0x79 && t = .keyboard)

/-- How many scancodes follow a header (R65 (c)). -/
def payloadCount (t : DeviceType) (idOnly : Bit) (id : Byte) (count : BitVec 4) : Nat :=
  if !idOnly && idAccepted t id then count.toNat else 0

/-- KeyboardState once `m` scancodes answered from `off` on have followed a header with ID `id`: the bytes in arrival
order, the other bytes as they were, and the length only where there was a payload (R89 steps 6 and 8). -/
def State.kbdAfter (s : State) (id : Byte) (off m : Nat) : KeyboardState :=
  { s.kbd with
    buf := Vector.ofFn fun i => if i.val < m then s.valueAt (off + 8 * i.val) 8 else s.kbd.buf[i]
    len := if m = 0 then s.kbd.len else BitVec.ofNat 4 m
    valid := idAccepted s.devType id }

/-- The end state of the sub-read from step 5 on, given the header (R89). -/
def State.headerDone (s : State) (idOnly : Bit) (id : Byte) (count : BitVec 4) : State :=
  let m := payloadCount s.devType idOnly id count
  { s.consumed (8 * m) with
    trace := s.trace ++ s.dibitTrace 0 (4 * m) ++ [.write .io true]
    pins := { s.pins with
      clkOut := if m = 0 then s.pins.clkOut else .driven true
      ioOut := .driven true }
    kbd := s.kbdAfter id 0 m }

/-- The end state of the sub-read from step 3 on, given the ID (R89). -/
def State.idDone (s : State) (idOnly : Bit) (id : Byte) : State :=
  let m := payloadCount s.devType idOnly id (s.valueAt 0 4)
  { s.consumed (4 + 8 * m) with
    trace := s.trace ++ (if s.kbd.capsLock then [] else [Event.write .io true]) ++ s.dibitTrace 0 2 ++
      s.dibitTrace 4 (4 * m) ++ [.write .io true]
    pins := { s.pins with clkOut := .driven true, ioOut := .driven true }
    kbd := s.kbdAfter id 4 m }

/-- How many scancodes the sub-read takes when its first answer is the `off`-th. -/
def State.scancodesAt (s : State) (idOnly : Bit) (off : Nat) : Nat :=
  payloadCount s.devType idOnly (s.valueAt off 8) (s.valueAt (off + 8) 4)

/-- The events of the sub-read when its first answer is the `off`-th (R55, R56, R89). -/
def State.subreadTrace (s : State) (idOnly : Bit) (off : Nat) : List Event :=
  [.write .io false] ++ s.dibitTrace off 1 ++ (if idOnly then [Event.write .io true] else []) ++
  s.dibitTrace (off + 2) 3 ++ (if s.kbd.capsLock then [] else [Event.write .io true]) ++
  s.dibitTrace (off + 8) 2 ++ s.dibitTrace (off + 12) (4 * s.scancodesAt idOnly off) ++ [.write .io true]

/-- KeyboardState after a sub-read whose first answer is the `off`-th (R89): all of it written afresh but the caps-lock
flag. -/
def State.packetAt (s : State) (idOnly : Bit) (off : Nat) : KeyboardState :=
  let m := s.scancodesAt idOnly off
  { buf := Vector.ofFn fun i => if i.val < m then s.valueAt (off + 12 + 8 * i.val) 8 else 0
    len := BitVec.ofNat 4 m
    valid := idAccepted s.devType (s.valueAt off 8)
    capsLock := s.kbd.capsLock }

/-- The end state of `kbd_subread` (R89). -/
def State.subreadDone (s : State) (idOnly : Bit) : State :=
  { s.consumed (12 + 8 * s.scancodesAt idOnly 0) with
    trace := s.trace ++ s.subreadTrace idOnly 0
    pins := { s.pins with clkOut := .driven true, ioOut := .driven true }
    kbd := s.packetAt idOnly 0 }

/-! ## The read cycle (41_decoder.md R80) on the sequence of answers

Answer 0 is the hint, answers 1 to 16 or 1 to 32 the data word, the rest the keyboard packet. -/

/-- The length of the data word: 16 if `r[15] = 1`, else 32 (R36, R65 (a)). -/
def State.frameLength (s : State) : Nat := if s.answerAt 16 then 16 else 32

/-- The raw word `r`: the samples, and 0 where none was taken (R31). -/
def State.rawWord (s : State) : DataWord := (s.valueAt 1 s.frameLength).setWidth 32

/-- Whether the cycle ends as a disconnection: `k = 0`, `hint = 1`, `w[15:0] = 0` (R81). -/
def State.readsDisconnected (s : State) : Bool :=
  !(idAccepted s.devType (s.valueAt (1 + s.frameLength) 8)) && s.answerAt 0 && (~~~s.rawWord &&& 0x0000FFFF) = 0

/-- The device type of a word, by the masks of R59 rows 2 to 6. -/
def typeByMasks (k : Bit) (w : DataWord) : DeviceType :=
  if k then .keyboard
  else if (w &&& 0x0000F000) = 0 then .controller
  else if (w &&& 0x0000FF00) = 0x0000FF00 ∧ w ≠ 0xFFFFFFFF then .nes
  else if (w &&& 0x0000F000) = 0x00008000 then .mouse
  else .none

/-- The classification of the cycle (R59). -/
def State.readType (s : State) : DeviceType :=
  if s.readsDisconnected then .none
  else typeByMasks (idAccepted s.devType (s.valueAt (1 + s.frameLength) 8)) (~~~s.rawWord)

/-- The word `read` returns: `~r`, and 0 in the disconnection case (R35, R81). -/
def State.readWord (s : State) : DataWord := if s.readsDisconnected then 0 else ~~~s.rawWord

/-- The speed of a 2-bit field with value `f`: 3 counts as 0 (R60). -/
def speedOf (f : BitVec 2) : BitVec 2 := if f = 3 then 0 else f

/-- MouseState after a mouse word with speed field `f` (R87). -/
def MouseState.afterSpeed (m : MouseState) (f : BitVec 2) : MouseState :=
  { m with
    speed := speedOf f
    fails :=
      if speedOf f ≠ 1 ∧ speedOf f = m.speed ∧ m.fails < Config.mouseFailThreshold then m.fails + 1 else m.fails }

/-- MouseState after the cycle: cleared speed and counter on a disconnection, the speed update on a mouse word
(R81, R87). -/
def State.readMouse (s : State) : MouseState :=
  if s.readsDisconnected then { s.mouse with speed := 0, fails := 0 }
  else if s.readType = .mouse then s.mouse.afterSpeed ((~~~s.rawWord).extractLsb' 10 2)
  else s.mouse

/-- The events of the cycle (R80). -/
def State.readTrace (s : State) : List Event :=
  [.read .d0 (s.answerAt 0)] ++ s.latchTrace ++ s.sampleTrace 1 s.frameLength ++ s.subreadTrace false (1 + s.frameLength)

/-- The end state of `read` (R80), all of it. -/
def State.readDone (s : State) : State :=
  { s.consumed (1 + s.frameLength + 12 + 8 * s.scancodesAt false (1 + s.frameLength)) with
    devType := s.readType
    mouse := s.readMouse
    kbd := s.packetAt false (1 + s.frameLength)
    pins := { s.pins with clkOut := .driven true, latchOut := .driven false, ioOut := .driven true }
    trace := s.trace ++ s.readTrace
    ret := .word s.readWord }

/-! ## Safe states -/

/-- The invariant of a state the host can reach (10_state.md R22, R24, R29 (d); 41_decoder.md R77): what is issued are host
commands, the rumble frame is the frame of the stored intensities and the cursor rests at 15, the stored speed is a
speed, the counter is within its bound, the scancode buffer is 0 beyond its length, and a running block has its pins
configured. -/
structure SafeState (s : State) : Prop where
  hostIssued : ∀ f ∈ s.inbox, isCommandFrame f = true
  rumbleFrame : s.rumble.frame = 0x7200 ||| (s.rumble.right.setWidth 16 <<< 4) ||| s.rumble.left.setWidth 16
  rumbleCursor : s.rumble.cursor = 15
  mouseSpeed : s.mouse.speed ≠ 3
  mouseFails : s.mouse.fails ≤ Config.mouseFailThreshold
  scancodesBeyond : ∀ i : Fin 16, s.kbd.len.toNat ≤ i.val → s.kbd.buf[i] = 0
  pinsConfigured : s.phase = .running →
    s.pins.clkDir = .output ∧ s.pins.latchDir = .output ∧ s.pins.ioDir = .output ∧
      s.pins.d0Dir = .inputPullUp ∧ s.pins.d1Dir = .inputPullUp

/-- Consecutive `shift_bit`s of data0, each issued on the state the one before left. -/
def shiftBits : (n : Nat) → State → Result
  | 0, s => .next s
  | n + 1, s =>
    match exec (.shiftBit .d0) s with
    | .next t => shiftBits n t
    | .fault r => .fault r
    | .refused r => .refused r

/-! ## Stimuli (95_test_vectors.md, Conventions) -/

/-- The answers that carry the low `n` bits of a value, least significant first. -/
def wireBits {w : Nat} (n : Nat) (v : BitVec w) : List Bit := (List.range n).map v.getLsbD

/-- The answers of a sub-read that finds no keyboard: both lines high for six pulses. -/
def noKeyboard : List Bit := List.replicate 12 true

/-- The answers of a keyboard packet with the given ID and scancodes. -/
def keyboardPacket (id : Byte) (scancodes : List Byte) : List Bit :=
  wireBits 8 id ++ wireBits 4 (BitVec.ofNat 4 scancodes.length) ++ scancodes.flatMap (wireBits 8)

end Sys2Proof.Machine
end

