-- ==== Sys2Proof/Certificates/Slice0/Obligations.lean ====
section
/-! DEFINITION. The statements for the provers, one definition each, listed in OBLIGATIONS.json.
An equation `exec i s = .next t` is a completion, a result and a frame in one: every field of the state that the right side
does not name is as it was. -/

open Sys2Proof Sys2Proof.Machine

/-! ## Encoding -/

/-- Decoding the encoding of a well-formed row with an encoding gives the row back, every operand with it (R59 to R62; the
command codes are the spec's choice, D2, and the tagged frames the model's, log 2). -/
def Obligations.DecodeOfEncodeIsIdentity : Prop :=
  ∀ i : Instr, WellFormed i = true → isMicro i = false → ∃ f, encode i = some f ∧ decode f = .ok i

/-- Whatever the decoder reads is a well-formed row, and never a micro-operation: those have no encoding (R63). A frame that
the host can issue is exactly one that decodes to a host row: no internal pattern is reachable by a command word (R62, R97;
frames are the model's, log 2). -/
def Obligations.DecodedInstructionsAreTableRows : Prop :=
  ∀ (f : Frame) (i : Instr), decode f = .ok i →
    WellFormed i = true ∧ isMicro i = false ∧ isHostRow i = isCommandFrame f

/-- The command word by the masks of the opcode table (R62, D2; R64 (e)): the op field selects the operation, operand bits an
operation does not use are ignored, and a caps-lock or rumble operand is read whole. -/
def Obligations.CommandWordFieldsSelectTheOperation : Prop :=
  ∀ c : Command,
    (c &&& 0xF0000 = 0x00000 → decode (.command c) = .ok .init) ∧
    (c &&& 0xF0000 = 0x10000 → decode (.command c) = .ok .begin) ∧
    (c &&& 0xF0000 = 0x20000 → decode (.command c) = .ok .start) ∧
    (c &&& 0xF0000 = 0x30000 → decode (.command c) = .ok .poll) ∧
    (c &&& 0xF0000 = 0x40000 → decode (.command c) = .ok (.setCapsLockLed (c.getLsbD 0))) ∧
    (c &&& 0xF0000 = 0x50000 →
      decode (.command c) = .ok (.setRumble (BitVec.ofNat 8 (c.toNat / 256)) (BitVec.ofNat 8 c.toNat))) ∧
    (c &&& 0xE0000 = 0x60000 → decode (.command c) = .ok .reserved67) ∧
    (c &&& 0x80000 = 0x80000 → decode (.command c) = .ok .reserved8F)

/-- The priority decode of a data word by the masks and matches of R59, with the same tests on the wire word `~w`, and the
exclusion of rows 3, 4 and 5 (which the spec derives). The NES condition is D9's reading. -/
def Obligations.DataWordPriorityDecode : Prop :=
  ∀ (k hint : Bit) (w : DataWord),
    decode (.dataWord k hint w) = .ok (
      if k = false ∧ hint = true ∧ w &&& 0x0000FFFF = 0x00000000 then .classifyDisconnected w
      else if k = true then .classifyKeyboard w
      else if w &&& 0x0000F000 = 0x00000000 then .classifyController w
      else if w &&& 0x0000FF00 = 0x0000FF00 ∧ w ≠ 0xFFFFFFFF then .classifyNes w
      else if w &&& 0x0000F000 = 0x00008000 then .classifyMouse w
      else .classifyUnknown w) ∧
    (matchesDisconnected w = true ↔ (~~~w) &&& 0x0000FFFF = 0x0000FFFF) ∧
    (matchesController w = true ↔ (~~~w) &&& 0x0000F000 = 0x0000F000) ∧
    (matchesNes w = true ↔ (~~~w) &&& 0x0000FF00 = 0 ∧ ~~~w ≠ 0) ∧
    (matchesMouse w = true ↔ (~~~w) &&& 0x0000F000 = 0x00007000) ∧
    (matchesController w = true → matchesNes w = false ∧ matchesMouse w = false) ∧
    (matchesNes w = true → matchesMouse w = false)

/-- Words written out from the encodings of the spec (R54, R55, R57, R60, R61, R62 with D2), one or more of each format,
decode to what they stand for. Telling the formats apart by length is the model's choice (log 2), and so is the numbering of
the packet header's bits in arrival order (log 8). -/
def Obligations.WordsWrittenOutDecode : Prop :=
  decodeTableWord 24 0b0000_0000_0000_0000_0000 = some .init ∧
  decodeTableWord 24 0b0011_0000_0000_0000_0000 = some .poll ∧
  decodeTableWord 24 0b0100_0000_0000_0000_0001 = some (.setCapsLockLed true) ∧
  decodeTableWord 24 0b0101_1111_1111_1000_0000 = some (.setRumble 255 128) ∧
  decodeTableWord 24 0b0111_0000_0000_0000_0000 = some .reserved67 ∧
  decodeTableWord 32 0b0101_0000_0000_0000_1000_0010_0000_0000 = some (.classifyMouse 0x50008200) ∧
  decodeTableWord 8 0b10 = some .speedMedium ∧
  decodeTableWord 8 0b01111000 = some .kbdIdMatch ∧
  decodeTableWord 8 0b011110 = some .kbdIdEarly ∧
  decodeTableWord 16 0b0011_01111000 = some (.kbdPacket 0x78 3) ∧
  decodeTableWord 16 0b01110010_1000_1111 = some (.rumbleFrame 8 15)

/-! ## The step -/

/-- A step takes the oldest issued frame and runs what it decodes to, and nothing around it (log 1, the model's choice); a
frame that is no row has its silent outcome (R64; log 2); with nothing issued the block is idle (R116, R117). -/
def Obligations.StepRunsTheDecodedInstruction : Prop :=
  (∀ (s : State) (f : Frame) (rest : List Frame) (i : Instr), s.inbox = f :: rest → decode f = .ok i →
    step s = exec i { s with inbox := rest }) ∧
  (∀ (s : State) (f : Frame) (i : Instr), decode f = .ok i → step (s.issue f) = exec i s) ∧
  (∀ (s : State) (f : Frame) (rest : List Frame) (e : DecodeError), s.inbox = f :: rest → decode f = .error e →
    step s = silently e { s with inbox := rest }) ∧
  (∀ s : State, s.inbox = [] → step s = .next s)

/-- R104: an accepted operation always answers a next state; nothing faults; the one other outcome is the refusal of START
and POLL before BEGIN and of the reserved commands; and a host operation returns no status. -/
def Obligations.NothingFaultsAndAcceptedOperationsComplete : Prop :=
  ∀ (i : Instr) (s : State),
    ((∃ t, exec i s = .next t ∧ (isHostRow i = true → t.ret = .none)) ∧ i ≠ .reserved67 ∧ i ≠ .reserved8F ∧
      ((i = .start ∨ i = .poll) → s.phase = .running)) ∨
    ((i = .start ∨ i = .poll) ∧ s.phase = .uninitialized ∧ exec i s = .refused .notBegun) ∨
    ((i = .reserved67 ∨ i = .reserved8F) ∧ exec i s = .refused .reservedCommand)

/-! ## Reset, INIT, BEGIN and the phase check -/

/-- The power-on state (R117, D21; D23 for the rumble frame and cursor, D5 for the pins): every value the spec gives.
`mouse.x` and `mouse.y` are unspecified and not claimed (log 4). -/
def Obligations.ResetHoldsTheValuesOfTheSpec : Prop :=
  State.reset.phase = .uninitialized ∧ State.reset.devType = .none ∧
  State.reset.pad = ⟨false, false, false, false, false, false, false, false, false, false, false, false⟩ ∧
  State.reset.mouse.speed = 0 ∧ State.reset.mouse.fails = 0 ∧
  State.reset.kbd = ⟨Vector.replicate 16 0, 0, false, false⟩ ∧
  State.reset.rumble = ⟨0, 0, 0x7200, 15, false⟩ ∧
  State.reset.pins =
    ⟨.unconfigured, .unconfigured, .unconfigured, .unconfigured, .unconfigured, .unwritten, .unwritten, .unwritten⟩

/-- INIT (R75, R28; D23 for the rumble frame and cursor): from any state, every element but the pins takes its reset value,
the mouse coordinates some value (D24; log 4), and the trace is empty. Nothing is claimed of the number of free values
drawn. -/
def Obligations.InitReturnsEveryElementToReset : Prop :=
  ∀ s : State, ∃ (x y : Byte) (n : Nat), exec .init s = .next { s with
    phase := .uninitialized
    devType := .none
    pad := ⟨false, false, false, false, false, false, false, false, false, false, false, false⟩
    mouse := ⟨x, y, 0, 0⟩
    kbd := ⟨Vector.replicate 16 0, 0, false, false⟩
    rumble := ⟨0, 0, 0x7200, 15, false⟩
    trace := []
    ret := .none
    freeIdx := n }

/-- BEGIN (R76, D22): the five directions in order, phase Running, no level driven, nothing else. -/
def Obligations.BeginConfiguresThePinsAndRuns : Prop :=
  ∀ s : State, exec .begin s = .next { s with
    phase := .running
    pins := { s.pins with
      clkDir := .output, latchDir := .output, ioDir := .output, d0Dir := .inputPullUp, d1Dir := .inputPullUp }
    trace := [.config .clk .output, .config .latch .output, .config .io .output, .config .d0 .inputPullUp,
      .config .d1 .inputPullUp]
    ret := .none }

/-- The two refusals of the spec: START and POLL before BEGIN, the phase check (R77, D20), and the reserved commands, in every
state (R64 (e), D2). -/
def Obligations.RefusalsBeforeBeginAndOfReservedCommands : Prop :=
  (∀ s : State, s.phase = .uninitialized →
    exec .start s = .refused .notBegun ∧ exec .poll s = .refused .notBegun) ∧
  (∀ s : State, exec .reserved67 s = .refused .reservedCommand ∧ exec .reserved8F s = .refused .reservedCommand)

/-! ## The outputs -/

/-- The host-visible outputs (R11) are their registers, the scancode sequence being the first `kbd_len` bytes of the buffer,
and the device-type codes of the status port are 0 to 4 in the order of R14 (D3). -/
def Obligations.OutputsAreTheirRegisters : Prop :=
  deviceCode .none = 0 ∧ deviceCode .controller = 1 ∧ deviceCode .nes = 2 ∧ deviceCode .mouse = 3 ∧
  deviceCode .keyboard = 4 ∧
  ∀ s : State,
    s.outputs.deviceType = deviceCode s.devType ∧ s.outputs.buttons = s.pad ∧ s.outputs.mouseX = s.mouse.x ∧
    s.outputs.mouseY = s.mouse.y ∧ s.outputs.capsLock = s.kbd.capsLock ∧ s.outputs.scancodeCount = s.kbd.len ∧
    s.outputs.scancodes.length = s.kbd.len.toNat ∧
    ∀ i : Fin 16, i.val < s.kbd.len.toNat → s.outputs.scancodes[i.val]? = some s.kbd.buf[i]

/-! ## START and POLL -/

/-- START (R78, D17): `dev_type` forced to None, one read cycle, and the zero and centre defaults exactly when that cycle
classified a device. -/
def Obligations.StartIsOneReadCycleThenDefaults : Prop :=
  ∀ s : State, s.phase = .running →
    ∃ t, exec .read { s with devType := .none, trace := [], ret := .none } = .next t ∧
      exec .start s = .next (
        if t.devType = .none then { t with ret := .none }
        else { t with
          ret := .none
          pad := ⟨false, false, false, false, false, false, false, false, false, false, false, false⟩
          mouse := { t.mouse with x := 127, y := 127 } })

/-- POLL with no device tracked is exactly START (R66, R79). -/
def Obligations.PollWithoutADeviceIsStart : Prop :=
  ∀ s : State, s.devType = .none → exec .poll s = exec .start s

/-- POLL with a device tracked whose read returns a word other than 0 (R79, D26): the demultiplexer of the type this very
read classified, on that word. -/
def Obligations.PollReadsThenDemultiplexes : Prop :=
  ∀ s : State, s.phase = .running → s.devType ≠ .none →
    ∃ (t : State) (w : DataWord), exec .read { s with trace := [], ret := .none } = .next t ∧ t.ret = .word w ∧
      (w ≠ 0 →
        (t.devType = .controller → exec .poll s = exec (.demuxController w) { t with ret := .none }) ∧
        (t.devType = .nes → exec .poll s = exec (.demuxNes w) { t with ret := .none }) ∧
        (t.devType = .mouse → exec .poll s = exec (.demuxMouse w) { t with ret := .none }) ∧
        (t.devType = .keyboard ∨ t.devType = .none → exec .poll s = .next { t with ret := .none }))

/-- POLL with a device tracked whose read returns exactly 0 (R79, R108): START in the same call, from the state that read
left, the two traces one after the other. -/
def Obligations.PollRedetectsInTheSameCall : Prop :=
  ∀ s t : State, s.phase = .running → s.devType ≠ .none →
    exec .read { s with trace := [], ret := .none } = .next t → t.ret = .word 0 →
    ∃ u, exec .start t = .next u ∧ exec .poll s = .next { u with trace := t.trace ++ u.trace }

/-- The bring-up order (R118): INIT, BEGIN, POLL from any state all complete, and the block is Running afterwards. -/
def Obligations.BringUpCompletes : Prop :=
  ∀ s : State, ∃ a b c, exec .init s = .next a ∧ exec .begin a = .next b ∧ exec .poll b = .next c ∧
    exec .start b = .next c ∧ c.phase = .running

/-! ## The register operations -/

/-- SET_CAPS_LOCK_LED (R92, D25): the flag and nothing else, in every phase, with an empty trace. -/
def Obligations.SetCapsLockLedStoresItsOperand : Prop :=
  ∀ (flag : Bit) (s : State),
    exec (.setCapsLockLed flag) s = .next { s with kbd := { s.kbd with capsLock := flag }, trace := [], ret := .none }

/-- SET_RUMBLE (R94): both operands divided by 16; a no-op when both equal the stored intensities, whatever `active` is;
otherwise stored, the frame rebuilt, the cursor at 15 and the channel active. -/
def Obligations.SetRumbleStoresScaledIntensities : Prop :=
  ∀ (left right : Byte) (s : State), ∃ l r : BitVec 4, l.toNat = left.toNat / 16 ∧ r.toNat = right.toNat / 16 ∧
    exec (.setRumble left right) s = .next { s with
      trace := []
      ret := .none
      rumble :=
        if l = s.rumble.left ∧ r = s.rumble.right then s.rumble
        else ⟨l, r, BitVec.ofNat 16 (0x7200 + r.toNat * 16 + l.toNat), 15, true⟩ }

/-- RUMBLE_FRAME (R57): the row means the storing half of R94 on the frame's nibbles (log 10, the model's reading); and in a safe
state the frame that goes out is the RUMBLE_FRAME row of the stored intensities (R22 (a)). -/
def Obligations.RumbleFrameRowIsStoredAndIsTheFrameSent : Prop :=
  (∀ (right left : BitVec 4) (s : State),
    exec (.rumbleFrame right left) s = .next { s with
      rumble :=
        if left = s.rumble.left ∧ right = s.rumble.right then s.rumble
        else ⟨left, right, BitVec.ofNat 16 (0x7200 + right.toNat * 16 + left.toNat), 15, true⟩ }) ∧
  (∀ s : State, SafeState s → decode (.rumble s.rumble.frame) = .ok (.rumbleFrame s.rumble.right s.rumble.left))

/-! ## Patterns that are no row -/

/-- Nothing traps (R64, R61): a pattern of an internal format that is no row, issued on its own, has a silent outcome, and the
step goes on. Another keyboard ID is a mismatch, with which the sub-read goes on; another partial ID takes no early exit, and
the fourth dibit follows (R90 (b)); a demultiplexer acts on any word, and Keyboard and None have none (R79). That a frame can
be issued on its own, and that an outbound frame without the magic byte does nothing, are the model's choices (log 2). -/
def Obligations.UnrecognisedPatternsHaveSilentOutcomes : Prop :=
  ∀ s : State,
    (∀ id : Byte, id ≠ 0x78 → id ≠ 0x79 →
      step (s.issue (.kbdId id)) = .next { s.idDone false id with ret := .bit false }) ∧
    (∀ p : BitVec 6, p ≠ 0x1E → ∃ id : Byte, id = s.valueAt 0 2 ++ p ∧
      step (s.issue (.kbdPartial p)) = .next { ({ s.consumed 2 with
        pins := { s.pins with clkOut := .driven true }
        trace := s.trace ++ s.dibitEvents 0 } : State).idDone false id with ret := .bit (idAccepted s.devType id) }) ∧
    (∀ w : DataWord,
      step (s.issue (.demux .controller w)) = exec (.demuxController w) s ∧
      step (s.issue (.demux .nes w)) = exec (.demuxNes w) s ∧
      step (s.issue (.demux .mouse w)) = exec (.demuxMouse w) s ∧
      step (s.issue (.demux .keyboard w)) = .next s ∧
      step (s.issue (.demux .none w)) = .next s) ∧
    (∀ f : BitVec 16, f.extractLsb' 8 8 ≠ 0x72 → step (s.issue (.rumble f)) = .next s)

/-! ## Classification rows and the mouse speed -/

/-- CLASSIFY_DISCONNECTED, _KEYBOARD, _CONTROLLER, _NES and _UNKNOWN (R81, R82; log 7, the model's reading of a row): the
type stored, the word returned, the mouse speed state cleared by a disconnection only. -/
def Obligations.ClassificationRowsStoreTheType : Prop :=
  ∀ (w : DataWord) (s : State),
    exec (.classifyDisconnected w) s = .next { s with
      devType := .none, mouse := { s.mouse with speed := 0, fails := 0 }, ret := .word 0 } ∧
    exec (.classifyKeyboard w) s = .next { s with devType := .keyboard, ret := .word w } ∧
    exec (.classifyController w) s = .next { s with devType := .controller, ret := .word w } ∧
    exec (.classifyNes w) s = .next { s with devType := .nes, ret := .word w } ∧
    exec (.classifyUnknown w) s = .next { s with devType := .none, ret := .word w }

/-- mouse_speed_update and CLASSIFY_MOUSE (R87, D18, D30; log 7): the speed field, 3 stored as 0, and one more stagnant
reading exactly when the speed is not Fast, equals the stored one, and the counter is below its threshold. -/
def Obligations.MouseWordUpdatesTheSpeedState : Prop :=
  ∀ (w : DataWord) (s : State), ∃ v : BitVec 2,
    v.toNat = (if w.toNat / 1024 % 4 = 3 then 0 else w.toNat / 1024 % 4) ∧
    let m : MouseState := { s.mouse with
      speed := v
      fails := if v ≠ 1 ∧ v = s.mouse.speed ∧ s.mouse.fails < Config.mouseFailThreshold then s.mouse.fails + 1
        else s.mouse.fails }
    exec (.mouseSpeedUpdate w) s = .next { s with mouse := m } ∧
    exec (.classifyMouse w) s = .next { s with mouse := m, devType := .mouse, ret := .word w }

/-- R60: the four values of the field `w[11:10]` are the four rows of the table, and what the block stores for each, whatever
it stored before. -/
def Obligations.SpeedFieldValuesAreStored : Prop :=
  ∀ (w : DataWord) (s : State), ∃ t, exec (.mouseSpeedUpdate w) s = .next t ∧
    (w.getLsbD 11 = false → w.getLsbD 10 = false →
      decode (.mouseSpeed (w.extractLsb' 10 2)) = .ok .speedSlow ∧ t.mouse.speed = 0) ∧
    (w.getLsbD 11 = false → w.getLsbD 10 = true →
      decode (.mouseSpeed (w.extractLsb' 10 2)) = .ok .speedFast ∧ t.mouse.speed = 1) ∧
    (w.getLsbD 11 = true → w.getLsbD 10 = false →
      decode (.mouseSpeed (w.extractLsb' 10 2)) = .ok .speedMedium ∧ t.mouse.speed = 2) ∧
    (w.getLsbD 11 = true → w.getLsbD 10 = true →
      decode (.mouseSpeed (w.extractLsb' 10 2)) = .ok .speedMalformed ∧ t.mouse.speed = 0)

/-- SPEED_SLOW, _FAST, _MEDIUM and _MALFORMED each complete and store their speed, and change nothing but the speed and the
counter; and the row of a word's field does what `mouse_speed_update` does with the word (R60, R87; log 9, the model's reading
of a row). -/
def Obligations.SpeedRowsAreTheSpeedUpdate : Prop :=
  ∀ s : State,
    (∃ n, exec .speedSlow s = .next { s with mouse := { s.mouse with speed := 0, fails := n } } ∧
      (n = s.mouse.fails ∨ n = s.mouse.fails + 1 ∧ n ≤ Config.mouseFailThreshold)) ∧
    exec .speedFast s = .next { s with mouse := { s.mouse with speed := 1 } } ∧
    (∃ n, exec .speedMedium s = .next { s with mouse := { s.mouse with speed := 2, fails := n } } ∧
      (n = s.mouse.fails ∨ n = s.mouse.fails + 1 ∧ n ≤ Config.mouseFailThreshold)) ∧
    exec .speedMalformed s = exec .speedSlow s ∧
    ∀ (w : DataWord) (i : Instr), decode (.mouseSpeed (w.extractLsb' 10 2)) = .ok i → exec i s = exec (.mouseSpeedUpdate w) s

/-- classify (R82, D9): the four tests in order by the masks of R59; no state is written. -/
def Obligations.ClassifyFollowsThePriorityOrder : Prop :=
  ∀ (w : DataWord) (k : Bit) (s : State),
    exec (.classify w k) s = .next { s with ret := .device (
      if k = true then .keyboard
      else if w &&& 0x0000F000 = 0 then .controller
      else if w &&& 0x0000FF00 = 0x0000FF00 ∧ w ≠ 0xFFFFFFFF then .nes
      else if w &&& 0x0000F000 = 0x00008000 then .mouse
      else .none) }

/-! ## Demultiplexers -/

/-- R84: the Controller row selects demux_controller, and twelve bits of `w = ~r` become the twelve registers, each 1 exactly
when the wire level was low; nothing else is written. -/
def Obligations.DemuxControllerCopiesTwelveBits : Prop :=
  ∀ (r : DataWord) (s : State),
    (~~~r &&& 0x0000F000 = 0 → decode (.demux .controller (~~~r)) = .ok (.demuxController (~~~r))) ∧
    exec (.demuxController (~~~r)) s = .next { s with pad :=
      { btnB := !r.getLsbD 0, btnY := !r.getLsbD 1, btnSelect := !r.getLsbD 2, btnStart := !r.getLsbD 3
        up := !r.getLsbD 4, down := !r.getLsbD 5, left := !r.getLsbD 6, right := !r.getLsbD 7
        btnA := !r.getLsbD 8, btnX := !r.getLsbD 9, btnL := !r.getLsbD 10, btnR := !r.getLsbD 11 } }

/-- demux_nes (R85, D16): eight bits of `w = ~r` become eight registers; X, Y, L and R keep their values. The pattern of the
row is `w[15:8] = 0xFF` alone, without the condition `w ≠ 0xFFFFFFFF` of the classification (log 11, the model's choice). -/
def Obligations.DemuxNesCopiesEightBits : Prop :=
  ∀ (r : DataWord) (s : State),
    (~~~r &&& 0x0000FF00 = 0x0000FF00 → decode (.demux .nes (~~~r)) = .ok (.demuxNes (~~~r))) ∧
    exec (.demuxNes (~~~r)) s = .next { s with pad :=
      { btnA := !r.getLsbD 0, btnB := !r.getLsbD 1, btnSelect := !r.getLsbD 2, btnStart := !r.getLsbD 3
        up := !r.getLsbD 4, down := !r.getLsbD 5, left := !r.getLsbD 6, right := !r.getLsbD 7
        btnX := s.pad.btnX, btnY := s.pad.btnY, btnL := s.pad.btnL, btnR := s.pad.btnR } }

/-- demux_mouse (R86, R58 (d), (e); D15, D16): two buttons, and each coordinate `127 ± M * P` mod 256, where `M` is the field
reversed in its 8-bit container, bit `7 - k` of `M` being bit `k` of the field and bit 0 being 0. -/
def Obligations.DemuxMouseRecentresTheCoordinates : Prop :=
  ∀ (w : DataWord) (s : State), ∃ mx my : Byte,
    (∀ k < 7, mx.getLsbD (7 - k) = w.getLsbD (25 + k) ∧ my.getLsbD (7 - k) = w.getLsbD (17 + k)) ∧
    mx.getLsbD 0 = false ∧ my.getLsbD 0 = false ∧
    (w &&& 0x0000F000 = 0x00008000 → decode (.demux .mouse w) = .ok (.demuxMouse w)) ∧
    exec (.demuxMouse w) s = .next { s with
      pad := { s.pad with btnB := w.getLsbD 8, btnA := w.getLsbD 9 }
      mouse := { s.mouse with
        x := BitVec.ofInt 8 (if w.getLsbD 24 then 127 - mx.toNat * Config.mousePrecision
          else 127 + mx.toNat * Config.mousePrecision)
        y := BitVec.ofInt 8 (if w.getLsbD 16 then 127 - my.toNat * Config.mousePrecision
          else 127 + my.toNat * Config.mousePrecision) } }

/-- A mouse coordinate that fits its register is exact (R86): no reduction mod 256 where the sum lies in 0 to 255, whatever
the precision. -/
def Obligations.MouseCoordinateInRangeIsExact : Prop :=
  ∀ (w : DataWord) (s : State), ∃ t, exec (.demuxMouse w) s = .next t ∧
    let vx := (magnitude (w.extractLsb' 25 7)).toNat * Config.mousePrecision
    let vy := (magnitude (w.extractLsb' 17 7)).toNat * Config.mousePrecision
    (w.getLsbD 24 = false → 127 + vx < 256 → t.mouse.x.toNat = 127 + vx) ∧
    (w.getLsbD 24 = true → vx ≤ 127 → t.mouse.x.toNat + vx = 127) ∧
    (w.getLsbD 16 = false → 127 + vy < 256 → t.mouse.y.toNat = 127 + vy) ∧
    (w.getLsbD 16 = true → vy ≤ 127 → t.mouse.y.toNat + vy = 127)

/-- R83: rev8 reverses the order of the eight bits, is its own inverse, gives the two values the source prints, turns the
leading zero of a 7-bit argument into a trailing one, and touches no state. -/
def Obligations.Rev8ReversesTheByte : Prop :=
  (∀ (x : Byte) (s : State), ∃ y : Byte, exec (.rev8 x) s = .next { s with ret := .byte y } ∧
    (∀ i < 8, y.getLsbD i = x.getLsbD (7 - i)) ∧
    exec (.rev8 y) s = .next { s with ret := .byte x } ∧
    (x.toNat ≤ 0x7F → y.toNat % 2 = 0)) ∧
  (∀ s : State, exec (.rev8 0b10000000) s = .next { s with ret := .byte 0b00000001 } ∧
    exec (.rev8 0b00001111) s = .next { s with ret := .byte 0b11110000 })

/-! ## The pin primitives -/

/-- PinWrite (R67): the level is driven, also when it is already driven, and one event appended. Delay (R69): one event, no
state read or written, whatever the duration. -/
def Obligations.PinWriteDrivesAndDelayOnlyWaits : Prop :=
  ∀ (v : Bit) (n : Nat) (s : State),
    exec (.delay n) s = .next { s with trace := s.trace ++ [.delay n] } ∧
    exec (.pinWrite .clk v) s = .next { s with
      pins := { s.pins with clkOut := .driven v }, trace := s.trace ++ [.write .clk v] } ∧
    exec (.pinWrite .latch v) s = .next { s with
      pins := { s.pins with latchOut := .driven v }, trace := s.trace ++ [.write .latch v] } ∧
    exec (.pinWrite .io v) s = .next { s with
      pins := { s.pins with ioOut := .driven v }, trace := s.trace ++ [.write .io v] }

/-- PinRead (R68) returns the environment's next answer, not inverted, appends one event and writes no state of the block.
The answer is listed or free (log 3), and `ret` is the model's own (log 6). -/
def Obligations.PinReadReturnsTheAnswer : Prop :=
  ∀ (p : InPin) (s : State),
    (∀ b rest, s.answers = b :: rest → exec (.pinRead p) s = .next { s with
      answers := rest, trace := s.trace ++ [.read p b], ret := .bit b }) ∧
    (s.answers = [] → ∃ (b : Bit) (n : Nat), exec (.pinRead p) s = .next { s with
      freeIdx := n, trace := s.trace ++ [.read p b], ret := .bit b })

/-- PinConfig (R70) on every pin: Output, or InputPullUp for an input with pull-up, and one event; no level is driven. An
input without pull-up completes too, with some direction on that pin (log 12). -/
def Obligations.PinConfigSetsTheDirection : Prop :=
  ∀ (p : Pin) (pull : Bit) (s : State),
    exec (.pinConfig p .output pull) s = .next { s with
      pins := s.pins.setDir p .output, trace := s.trace ++ [.config p .output] } ∧
    exec (.pinConfig p .input true) s = .next { s with
      pins := s.pins.setDir p .inputPullUp, trace := s.trace ++ [.config p .inputPullUp] } ∧
    (∃ (d : PinDir) (n : Nat), exec (.pinConfig p .input false) s = .next { s with
      pins := s.pins.setDir p d, trace := s.trace ++ [.config p d], freeIdx := n }) ∧
    (∀ d, (s.pins.setDir p d).dir p = d) ∧ (∀ (d : PinDir) (q : Pin), q ≠ p → (s.pins.setDir p d).dir q = s.pins.dir q) ∧
    (∀ (d : PinDir) (q : OutPin), (s.pins.setDir p d).out q = s.pins.out q)

/-! ## Transport -/

/-- latch_and_prime (R71, D7, D18): four events, or seven with the speed request, which is emitted exactly for a mouse below
Fast and below the threshold. -/
def Obligations.LatchAndPrimeEmitsTheSpeedRequest : Prop :=
  ∀ s : State,
    exec .latchAndPrime s = .next (
      if s.devType = .mouse ∧ s.mouse.speed ≠ 1 ∧ s.mouse.fails < Config.mouseFailThreshold then { s with
        pins := { s.pins with clkOut := .driven true, latchOut := .driven false }
        trace := s.trace ++ [.write .latch true, .delay 12, .write .clk false, .delay Config.tSpeedPulse,
          .write .clk true, .write .latch false, .delay 12] }
      else { s with
        pins := { s.pins with latchOut := .driven false }
        trace := s.trace ++ [.write .latch true, .delay 12, .write .latch false, .delay 12] })

/-- shift_bit (R72, D6) on either data pin: the rumble bit and the cursor step first while the channel is active, then clock
low, dwell, sample, clock high, dwell. -/
def Obligations.ShiftBitSamplesAndSendsARumbleBit : Prop :=
  ∀ (p : InPin) (s : State),
    let b := s.answerAt 0
    let sampled : List Event := [.write .clk false, .delay 12, .read p b, .write .clk true, .delay 12]
    let out := s.rumble.frame.getLsbD s.rumble.cursor.toNat
    exec (.shiftBit p) s = .next (
      if s.rumble.active = true then { s.consumed 1 with
        rumble := { s.rumble with cursor := BitVec.ofNat 4 (if s.rumble.cursor.toNat = 0 then 15 else s.rumble.cursor.toNat - 1) }
        pins := { s.pins with clkOut := .driven true, ioOut := .driven out }
        trace := s.trace ++ Event.write .io out :: sampled
        ret := .bit b }
      else { s.consumed 1 with
        pins := { s.pins with clkOut := .driven true }
        trace := s.trace ++ sampled
        ret := .bit b })

/-- shift_dibit (R73, D6, D14): one pulse, data0 and then data1 at its low phase, `data0 + 2 * data1` returned; no rumble bit
and no cursor step. -/
def Obligations.ShiftDibitSamplesBothLines : Prop :=
  ∀ s : State, ∃ d : Dibit,
    d.toNat = (s.answerAt 0).toNat + 2 * (s.answerAt 1).toNat ∧
    exec .shiftDibit s = .next { s.consumed 2 with
      pins := { s.pins with clkOut := .driven true }
      trace := s.trace ++ [.write .clk false, .delay 12, .read .d0 (s.answerAt 0), .read .d1 (s.answerAt 1),
        .write .clk true, .delay 12]
      ret := .dibit d }

/-- R33: while the channel is active, `n` consecutive shift_bits from cursor 15 send bit 15 of the frame first, then 14, down
to bit 0, then bit 15 again, one each. -/
def Obligations.ConsecutiveShiftBitsSendTheFrame : Prop :=
  ∀ (n : Nat) (s : State), s.rumble.active = true → s.rumble.cursor = 15 →
    ∃ t, shiftBits n s = .next t ∧
      ioLevels (t.trace.drop s.trace.length) = (List.range n).map fun i => s.rumble.frame.getLsbD (15 - i % 16)

/-! ## The keyboard sub-read -/

/-- KBD_ID_MATCH, KBD_ID_HEAL, KBD_ID_EARLY and KBD_PACKET (R55, R61, R89, R90, R91; log 8): the rest of the sub-read from
where the pattern is recognised. The partial ID of the early exit resolves to the expected one, 0x79 counts as it only while a
keyboard is tracked, and a packet header is followed by the payload of an accepted ID. -/
def Obligations.KeyboardRowsGoOnWithTheSubRead : Prop :=
  ∀ s : State,
    exec .kbdIdMatch s = .next { s.idDone false 0x78 with ret := .bit true } ∧
    exec .kbdIdEarly s = .next { s.idDone false 0x78 with ret := .bit true } ∧
    exec .kbdIdHeal s = .next { s.idDone false 0x79 with ret := .bit (decide (s.devType = .keyboard)) } ∧
    ∀ (id : Byte) (count : BitVec 4), exec (.kbdPacket id count) s =
      .next { s.headerDone false id count with ret := .bit (idAccepted s.devType id) }

/-- kbd_subread (R89, D12, D13, D31) for either value of the ID-only input: its result, its trace, the answers it consumes,
and the whole end state, read off the answers. -/
def Obligations.KeyboardSubReadFollowsThePacketFormat : Prop :=
  ∀ (idOnly : Bit) (s : State),
    exec (.kbdSubread idOnly) s = .next { s.subreadDone idOnly with ret := .bit (idAccepted s.devType (s.valueAt 0 8)) }

/-- R56: where the levels driven on the I/O line stand among the clock pulses of the sub-read: low before the first ID dibit;
high after it exactly in ID-only mode; high after the four ID dibits exactly if `caps_lock = 0`; high at the end, always. With
`caps_lock = 1` and not ID-only the line rises only at the end. -/
def Obligations.SubReadControlsTheIoLine : Prop :=
  ∀ (idOnly : Bit) (s : State), ∃ (t : State) (events : List Event) (count : Nat),
    exec (.kbdSubread idOnly) s = .next t ∧ t.trace = s.trace ++ events ∧ count ≤ 15 ∧
    pulsesAndIo events =
      [.write .io false] ++ [.write .clk false] ++
      (if idOnly = true then [.write .io true] else []) ++ List.replicate 3 (.write .clk false) ++
      (if s.kbd.capsLock = false then [.write .io true] else []) ++
      List.replicate (2 + 4 * count) (.write .clk false) ++ [.write .io true]

/-- The early exit at position 3 (R90, D11; the block is configured with 2): a first six bits of 0x1E end the ID after three
dibits, resolve it to the expected ID, and report a match; any other stream is read as with position 2. -/
def Obligations.EarlyExitAtPositionThree : Prop :=
  ∀ (idOnly : Bit) (s : State),
    (s.valueAt 0 6 = 0x1E →
      subread 3 idOnly s = (true, ({ s.consumed 6 with
        kbd := { s.kbd with buf := Vector.replicate 16 0, len := 0 }
        pins := { s.pins with clkOut := .driven true, ioOut := .driven idOnly }
        trace := s.trace ++ [.write .io false] ++ s.dibitEvents 0 ++
          (if idOnly = true then [Event.write .io true] else []) ++ s.dibitEvents 2 ++ s.dibitEvents 4 } : State).idDone
            idOnly 0x78)) ∧
    (s.valueAt 0 6 ≠ 0x1E → subread 3 idOnly s = subread 2 idOnly s)

/-! ## The read cycle -/

/-- `read` (R80, R81, R82, R87): from any state and for any answers, the value returned, the trace, the answers consumed and
the whole end state are the ones read off the answers by the frame formats. -/
def Obligations.ReadCycleFollowsTheFrameFormats : Prop :=
  ∀ s : State, exec .read s = .next s.readDone

/-- Bit `i` of the raw word is the `i`-th sample after the latch (R31; answer `1 + i` of the cycle, answer 0 being the hint),
and a bit never sampled stays 0; the word returned is its complement at 32 bits (R34, D8) unless the cycle is a
disconnection. The order of the events is D6's. -/
def Obligations.DataWordIsShiftedLeastSignificantFirst : Prop :=
  ∀ s : State, ∃ (t : State) (r : DataWord) (rest : List Event),
    exec .read s = .next t ∧
    t.trace = s.trace ++ [.read .d0 (s.answerAt 0)] ++ s.latchTrace ++
      s.sampleTrace 1 (if s.answerAt 16 = true then 16 else 32) ++ rest ∧
    (∀ i < 32, r.getLsbD i = if s.answerAt 16 = true ∧ 16 ≤ i then false else s.answerAt (1 + i)) ∧
    (t.ret = .word (~~~r) ∨ t.ret = .word 0 ∧ s.readsDisconnected = true)

/-- The word as computed, the complement of the raw word (R35, which the spec derives): a short frame has `w[31:16] = 0xFFFF`, a
long one has `w[15] = 1`, it is never 0, and so `read` returns 0 exactly on a disconnection and this word otherwise. -/
def Obligations.ComputedWordIsNeverZero : Prop :=
  ∀ s : State, ∃ (t : State) (w : DataWord), exec .read s = .next t ∧ w = ~~~s.rawWord ∧
    (s.answerAt 16 = true → ∀ i, 16 ≤ i → i < 32 → w.getLsbD i = true) ∧
    (s.answerAt 16 = false → w.getLsbD 15 = true) ∧ w ≠ 0 ∧
    (t.ret = .word 0 ↔ s.readsDisconnected = true) ∧ (s.readsDisconnected = false → t.ret = .word w)

/-- R81: the three conditions of the disconnection check, all of them needed, the third being that every one of the first 16
samples was high, with `k` read where the sub-read leaves it, in `kbd_valid`; what it writes; that it wins over every
classification; that it is the only way `read` returns 0 and the only way `read` clears the counter and the speed. -/
def Obligations.DisconnectionNeedsAllThreeConditions : Prop :=
  ∀ s : State, ∃ t, exec .read s = .next t ∧
    (t.ret = .word 0 ↔ t.kbd.valid = false ∧ s.answerAt 0 = true ∧ ∀ i < 16, s.answerAt (1 + i) = true) ∧
    (t.ret = .word 0 → t.devType = .none ∧ t.mouse = { s.mouse with speed := 0, fails := 0 }) ∧
    (t.ret ≠ .word 0 → s.mouse.fails ≤ t.mouse.fails ∧ (t.devType ≠ .mouse → t.mouse = s.mouse))

/-- The rest of `read` from step 6 on is the row its word decodes to (R80, R59; log 7): `read` is its bus part followed by the
classification row of the word, `k` and the hint. -/
def Obligations.ReadEndsInTheClassificationRow : Prop :=
  ∀ s : State, ∃ (u : State) (i : Instr),
    u = { s.consumed (1 + s.frameLength + 12 + 8 * s.scancodesAt false (1 + s.frameLength)) with
      kbd := s.packetAt false (1 + s.frameLength)
      pins := { s.pins with clkOut := .driven true, latchOut := .driven false, ioOut := .driven true }
      trace := s.trace ++ s.readTrace } ∧
    decode (.dataWord u.kbd.valid (s.answerAt 0) (~~~s.rawWord)) = .ok i ∧
    exec .read s = exec i u

/-- Rumble-frame alignment (R38, R95, which the spec derives): in a state with the cursor at 15 an active channel sends the whole
frame once in a 16-bit read cycle and twice in a 32-bit one, never part of one, before the levels of the keyboard sub-read; the
cursor is at 15 again at the end. -/
def Obligations.ReadCycleSendsWholeRumbleFrames : Prop :=
  ∀ s : State, s.rumble.active = true → s.rumble.cursor = 15 →
    ∃ t, exec .read s = .next t ∧ t.rumble = s.rumble ∧
      ioLevels (t.trace.drop s.trace.length) =
        (List.replicate (if s.answerAt 16 = true then 1 else 2) ((List.range 16).map fun i => s.rumble.frame.getLsbD (15 - i))).flatten ++
          [false] ++ (if s.kbd.capsLock = true then [] else [true]) ++ [true]

/-! ## Invariants and whole-machine rules -/

/-- The power-on state is safe (R22, R24, R29 (d)). -/
def Obligations.ResetIsSafe : Prop :=
  SafeState State.reset

/-- Every step keeps a safe state safe (R22, R24, R29 (d)), whatever the environment answers. -/
def Obligations.StepKeepsSafeState : Prop :=
  ∀ s t : State, SafeState s → step s = .next t → SafeState t

/-- R22 over every reachable state: whatever commands the host issues from reset and whatever the environment answers, between
operations the frame is the frame of the stored intensities and the cursor is at 15. -/
def Obligations.RumbleRestsAtFifteenInEveryReachableState : Prop :=
  ∀ (commands : List Command) (answers : List Bit) (n : Nat) (t : State),
    Host.Core.run Sys2Proof.core n
      ({ State.reset with inbox := commands.map Frame.command, answers := answers } : State) = .next t →
    t.rumble.frame.toNat = 0x7200 + t.rumble.right.toNat * 16 + t.rumble.left.toNat ∧ t.rumble.cursor = 15

/-- No way to deactivate (R96, R20): a step that runs anything but INIT leaves an active channel active, and only SET_RUMBLE
and the RUMBLE_FRAME row change the intensities or the frame. -/
def Obligations.OnlyInitDeactivatesRumble : Prop :=
  ∀ (i : Instr) (s t : State), exec i s = .next t →
    (s.rumble.active = true → i ≠ .init → t.rumble.active = true) ∧
    (i ≠ .init → (∀ l r, i ≠ .setRumble l r) → (∀ r l, i ≠ .rumbleFrame r l) →
      t.rumble.left = s.rumble.left ∧ t.rumble.right = s.rumble.right ∧ t.rumble.frame = s.rumble.frame ∧
      t.rumble.active = s.rumble.active)

/-- What a host operation may write (R20, R29 (a), R121; D16, D17, D29): the caps-lock flag is written by SET_CAPS_LOCK_LED and
INIT only, the phase by INIT and BEGIN only, RumbleState by SET_RUMBLE and INIT only, and the register operations leave the
device type, the buttons, the mouse, the rest of the keyboard state and the pins alone. -/
def Obligations.HostOperationsWriteOnlyTheirState : Prop :=
  ∀ (i : Instr) (s t : State), isHostRow i = true → exec i s = .next t →
    (i ≠ .init → (∀ f, i ≠ .setCapsLockLed f) → t.kbd.capsLock = s.kbd.capsLock) ∧
    (i ≠ .init → i ≠ .begin → t.phase = s.phase) ∧
    (i ≠ .init → i ≠ .start → i ≠ .poll →
      t.devType = s.devType ∧ t.pad = s.pad ∧ t.mouse = s.mouse ∧ t.kbd.buf = s.kbd.buf ∧ t.kbd.len = s.kbd.len ∧
        t.kbd.valid = s.kbd.valid) ∧
    (i ≠ .init → (∀ l r, i ≠ .setRumble l r) → t.rumble = s.rumble) ∧
    (i ≠ .begin → i ≠ .start → i ≠ .poll → t.pins = s.pins ∧ t.trace = [])

/-- After START or POLL the clock is high, the latch low and the I/O line high (R24), and the directions are as they were. -/
def Obligations.ReadCyclesLeaveThePinsAtRest : Prop :=
  ∀ (i : Instr) (s : State), (i = .start ∨ i = .poll) → s.phase = .running →
    ∃ t, exec i s = .next t ∧
      t.pins = { s.pins with clkOut := .driven true, latchOut := .driven false, ioOut := .driven true }

/-- Every host operation emits a bounded trace (R99, R128): none for INIT and the register operations, 5 events for BEGIN, at
most 600 for START, at most 1200 for POLL. -/
def Obligations.TracesAreBounded : Prop :=
  ∀ (i : Instr) (s t : State), exec i s = .next t →
    ((i = .init ∨ (∃ f, i = .setCapsLockLed f) ∨ ∃ l r, i = .setRumble l r) → t.trace = []) ∧
    (i = .begin → t.trace.length = 5) ∧
    (i = .start → t.trace.length ≤ 600) ∧
    (i = .poll → t.trace.length ≤ 1200)

/-- Rumble does not influence decoding (R26, R35, R95): two states that differ only in RumbleState give, for `read`, START and
POLL and the same answers, the same end state but for RumbleState itself, which neither changes, and the trace. -/
def Obligations.RumbleDoesNotInfluenceDecoding : Prop :=
  ∀ (i : Instr) (s t : State) (r : RumbleState), (i = .read ∨ i = .start ∨ i = .poll) → exec i s = .next t →
    ∃ es, exec i { s with rumble := r } = .next { t with rumble := r, trace := es }

/-! ## End to end -/

/-- A SNES controller, end to end (R52, R79, R84; vectors V1 and V8): with a device tracked, a POLL whose answers are any hint
but that of an idle disconnected bus, the sixteen wire levels of the held buttons and no keyboard reports exactly the buttons
held, consumes exactly those answers, and leaves the mouse coordinates. -/
def Obligations.ControllerPollReportsTheButtons : Prop :=
  ∀ (s : State) (hint : Bit) (held : BitVec 12) (rest : List Bit), s.phase = .running → s.devType ≠ .none →
    (hint = false ∨ held ≠ 0) →
    s.answers = hint :: wireBits 16 (~~~(held.setWidth 16)) ++ noKeyboard ++ rest →
    ∃ t, exec .poll s = .next t ∧ t.devType = .controller ∧ t.answers = rest ∧ t.mouse = s.mouse ∧ t.kbd.len = 0 ∧
      t.pad = { btnB := held.getLsbD 0, btnY := held.getLsbD 1, btnSelect := held.getLsbD 2, btnStart := held.getLsbD 3
                up := held.getLsbD 4, down := held.getLsbD 5, left := held.getLsbD 6, right := held.getLsbD 7
                btnA := held.getLsbD 8, btnX := held.getLsbD 9, btnL := held.getLsbD 10, btnR := held.getLsbD 11 }

/-- A keyboard, end to end (R55, R79, R89; vector K3): with a device tracked, a POLL whose answers are any hint, any 16-bit
word, and a packet of up to 15 scancodes delivers exactly those scancodes in arrival order, and writes no button and no mouse
coordinate. -/
def Obligations.KeyboardPollDeliversTheScancodes : Prop :=
  ∀ (s : State) (hint : Bit) (r : BitVec 16) (codes : List Byte) (rest : List Bit), s.phase = .running →
    s.devType ≠ .none → r.getLsbD 15 = true → codes.length ≤ 15 →
    s.answers = hint :: wireBits 16 r ++ keyboardPacket 0x78 codes ++ rest →
    ∃ t, exec .poll s = .next t ∧ t.devType = .keyboard ∧ t.answers = rest ∧ t.pad = s.pad ∧ t.mouse = s.mouse ∧
      t.outputs.scancodes = codes ∧ t.outputs.scancodeCount.toNat = codes.length ∧ t.kbd.valid = true

/-- A mouse, end to end (R54, R79, R86, R87; program P3): with a device tracked, a POLL whose answers are any hint, the 32 wire
levels of a mouse word and no keyboard ends as the demultiplexer and the speed update of that word say. -/
def Obligations.MousePollReportsTheMovement : Prop :=
  ∀ (s : State) (hint : Bit) (w : DataWord) (rest : List Bit), s.phase = .running → s.devType ≠ .none →
    w &&& 0x0000F000 = 0x00008000 →
    s.answers = hint :: wireBits 32 (~~~w) ++ noKeyboard ++ rest →
    ∃ a b t, exec (.mouseSpeedUpdate w) s = .next a ∧ exec (.demuxMouse w) a = .next b ∧
      exec .poll s = .next t ∧ t.devType = .mouse ∧ t.answers = rest ∧ t.mouse = b.mouse ∧ t.pad = b.pad

/-- A bus with nothing attached, end to end (R48, R79, R81; vectors V7 and X10 (b)): START on a bus that answers 1 to every read
tracks nothing and writes no button and no mouse coordinate; POLL with a device tracked gives it up after two read cycles. -/
def Obligations.DisconnectedBusIsGivenUp : Prop :=
  ∀ (s : State) (rest : List Bit), s.phase = .running →
    (s.answers = List.replicate 29 true ++ rest →
      ∃ t, exec .start s = .next t ∧ t.devType = .none ∧ t.answers = rest ∧ t.pad = s.pad ∧
        t.mouse = { s.mouse with speed := 0, fails := 0 } ∧ t.kbd.len = 0 ∧ t.kbd.valid = false) ∧
    (s.devType ≠ .none → s.answers = List.replicate 58 true ++ rest →
      ∃ t, exec .poll s = .next t ∧ t.devType = .none ∧ t.answers = rest ∧ t.pad = s.pad ∧
        t.mouse = { s.mouse with speed := 0, fails := 0 } ∧ t.kbd.len = 0 ∧ t.kbd.valid = false)
end

