-- ==== Sys2Proof/Laws/Operands.lean ====
section
/-! SUPPORT. What the operand and condition functions are, bit by bit. -/

namespace Sys2Proof.Machine

@[simp] theorem putBit_getLsbD {n : Nat} (v : BitVec n) (i m : Nat) (b : Bit) :
    (putBit v i b).getLsbD m = if m = i then (decide (i < n) && b) else v.getLsbD m := by
  unfold putBit
  by_cases h : m = i
  · subst h
    cases b <;> by_cases hm : m < n <;> simp [hm, BitVec.getLsbD_twoPow]
  · have h' : i ≠ m := fun e => h e.symm
    by_cases hm : m < n
    · cases b <;> simp [h, hm]
    · have : v.getLsbD m = false := BitVec.getLsbD_of_ge _ _ (by omega)
      cases b <;> simp [h, h', hm, this, BitVec.getLsbD_twoPow]

theorem mkDibit_getLsbD (a b : Bit) (m : Nat) :
    (mkDibit a b).getLsbD m = if m = 0 then a else if m = 1 then b else false := by
  unfold mkDibit
  simp only [putBit_getLsbD]
  rcases m with _ | _ | m <;> simp

theorem putDibit_mkDibit_getLsbD {n : Nat} (v : BitVec n) (j m : Nat) (a b : Bit) (h : 2 * j + 1 < n) :
    (putDibit v j (mkDibit a b)).getLsbD m =
      if m = 2 * j then a else if m = 2 * j + 1 then b else v.getLsbD m := by
  have h0 : 2 * j < n := by omega
  simp only [putDibit, putBit_getLsbD, mkDibit_getLsbD, h, h0, decide_true, Bool.true_and]
  by_cases h1 : m = 2 * j + 1
  · subst h1; simp
  · by_cases h2 : m = 2 * j
    · simp [h2]
    · simp [h1, h2]

/-- The reversal of the 8-bit container (R83). -/
theorem rev8_getLsbD (x : Byte) (i : Nat) (h : i < 8) : (rev8 x).getLsbD i = x.getLsbD (7 - i) := by
  rw [rev8, BitVec.getLsbD_reverse, BitVec.getMsbD]
  simp [h]

theorem rev8_rev8 (x : Byte) : rev8 (rev8 x) = x := by
  simp [rev8]

/-- The cursor steps down the ring of 16 (R88 (f)). -/
theorem nextCursor_eq (c : BitVec 4) : nextCursor c = c - 1 := by
  revert c; decide

/-- `0x7200 | (right << 4) | left` (R57). -/
theorem mkRumbleFrame_eq (right left : BitVec 4) :
    mkRumbleFrame right left = 0x7200 ||| (right.setWidth 16 <<< 4) ||| left.setWidth 16 := by
  have h : (rumbleMagic.zeroExtend 16 <<< 8 : BitVec 16) = 0x7200 := by decide
  simp [mkRumbleFrame, h]

/-- The stored speed is never 3 (R15). -/
theorem clampSpeed_ne (f : BitVec 2) : clampSpeed f ≠ 3 := by
  revert f; decide

/-! ## The masks of R59 and the fields say the same of a word -/

/-- A field of a word is a value exactly when the masked word is that value in its place. -/
theorem field_eq_iff_mask (w : DataWord) (lo n : Nat) (v : BitVec n) (h : lo + n ≤ 32) :
    w.extractLsb' lo n = v ↔ w &&& ((BitVec.allOnes n).setWidth 32 <<< lo) = v.setWidth 32 <<< lo := by
  constructor
  · intro e
    apply BitVec.eq_of_getLsbD_eq
    intro i hi
    have hb : (w.extractLsb' lo n).getLsbD (i - lo) = v.getLsbD (i - lo) := by rw [e]
    simp only [BitVec.getLsbD_extractLsb'] at hb
    by_cases h1 : i < lo
    · simp [hi, h1]
    · by_cases h2 : i - lo < n
      · have h3 : lo + (i - lo) = i := by omega
        simp only [h2, h3, decide_true, Bool.true_and] at hb
        rw [BitVec.getLsbD_and, BitVec.getLsbD_shiftLeft, BitVec.getLsbD_shiftLeft]
        simp [hi, h1, h2, hb, Bool.and_comm, -BitVec.getLsbD_eq_getElem]
      · have h3 : v.getLsbD (i - lo) = false := BitVec.getLsbD_of_ge _ _ (by omega)
        simp [hi, h1, h2, h3]
  · intro e
    apply BitVec.eq_of_getLsbD_eq
    intro i hi
    have hb := congrArg (fun x : DataWord => x.getLsbD (lo + i)) e
    have h1 : lo + i < 32 := by omega
    have h2 : i < 32 := by omega
    simpa [hi, h1, h2] using hb

theorem matchesController_iff (w : DataWord) : matchesController w = true ↔ w &&& 0x0000F000 = 0 := by
  rw [matchesController, decide_eq_true_eq]
  simpa [deviceId, devIdController] using field_eq_iff_mask w 12 4 0 (by decide)

theorem matchesMouse_iff (w : DataWord) : matchesMouse w = true ↔ w &&& 0x0000F000 = 0x00008000 := by
  rw [matchesMouse, decide_eq_true_eq]
  simpa [deviceId, devIdMouse] using field_eq_iff_mask w 12 4 8 (by decide)

theorem matchesNesMarker_iff (w : DataWord) : matchesNesMarker w = true ↔ w &&& 0x0000FF00 = 0x0000FF00 := by
  rw [matchesNesMarker, decide_eq_true_eq]
  simpa [upperByte, nesMarker] using field_eq_iff_mask w 8 8 0xFF (by decide)

theorem matchesDisconnected_iff (w : DataWord) : matchesDisconnected w = true ↔ w &&& 0x0000FFFF = 0 := by
  rw [matchesDisconnected, decide_eq_true_eq]
  simpa [lowHalf] using field_eq_iff_mask w 0 16 0 (by decide)

theorem not_eq_zero_iff (w : DataWord) : ~~~w = 0 ↔ w = 0xFFFFFFFF := by
  constructor
  · intro h
    have h1 := congrArg (fun x : DataWord => ~~~x) h
    simpa using h1
  · rintro rfl
    decide

theorem matchesNes_iff (w : DataWord) :
    matchesNes w = true ↔ w &&& 0x0000FF00 = 0x0000FF00 ∧ w ≠ 0xFFFFFFFF := by
  rw [matchesNes, Bool.and_eq_true, matchesNesMarker_iff, decide_eq_true_eq, ne_eq, not_eq_zero_iff, and_comm]

/-- A bit of a word read through a field. -/
theorem getLsbD_of_field {w : DataWord} {lo n : Nat} {v : BitVec n} (h : w.extractLsb' lo n = v) (i : Nat) (hi : i < n) :
    w.getLsbD (lo + i) = v.getLsbD i := by
  rw [← h, BitVec.getLsbD_extractLsb']
  simp [hi]

/-- Rows 3, 4 and 5 of R59 exclude each other. -/
theorem not_matchesController_of_bit15 {w : DataWord} (h : w.getLsbD 15 = true) : matchesController w = false := by
  rw [matchesController, decide_eq_false_iff_not]
  intro e
  rw [getLsbD_of_field (lo := 12) e 3 (by decide)] at h
  exact absurd h (by decide)

theorem bit15_of_matchesNes {w : DataWord} (h : matchesNes w = true) : w.getLsbD 15 = true := by
  simp only [matchesNes, matchesNesMarker, Bool.and_eq_true, decide_eq_true_eq] at h
  exact getLsbD_of_field (lo := 8) h.2 7 (by decide)

theorem bit15_of_matchesMouse {w : DataWord} (h : matchesMouse w = true) : w.getLsbD 15 = true := by
  simp only [matchesMouse, decide_eq_true_eq] at h
  exact getLsbD_of_field (lo := 12) h 3 (by decide)

theorem not_matchesNes_of_matchesMouse {w : DataWord} (h : matchesMouse w = true) : matchesNes w = false := by
  by_contra e
  simp only [Bool.not_eq_false, matchesNes, matchesNesMarker, Bool.and_eq_true, decide_eq_true_eq] at e
  simp only [matchesMouse, decide_eq_true_eq] at h
  have h1 := getLsbD_of_field (lo := 8) e.2 6 (by decide)
  have h2 := getLsbD_of_field (lo := 12) h 2 (by decide)
  simp only [Nat.reduceAdd] at h1 h2
  rw [h1] at h2
  exact absurd h2 (by decide)

end Sys2Proof.Machine
end

