-- ==== Sys2Proof/Laws/State.lean ====
section
/-! SUPPORT. One lemma per field per named update of the state, true by rfl. -/

namespace Sys2Proof.Machine

@[simp] theorem State.emit_phase (s : State) (e : Event) : (s.emit e).phase = s.phase := rfl
@[simp] theorem State.emit_devType (s : State) (e : Event) : (s.emit e).devType = s.devType := rfl
@[simp] theorem State.emit_pad (s : State) (e : Event) : (s.emit e).pad = s.pad := rfl
@[simp] theorem State.emit_mouse (s : State) (e : Event) : (s.emit e).mouse = s.mouse := rfl
@[simp] theorem State.emit_kbd (s : State) (e : Event) : (s.emit e).kbd = s.kbd := rfl
@[simp] theorem State.emit_rumble (s : State) (e : Event) : (s.emit e).rumble = s.rumble := rfl
@[simp] theorem State.emit_pins (s : State) (e : Event) : (s.emit e).pins = s.pins := rfl
@[simp] theorem State.emit_trace (s : State) (e : Event) : (s.emit e).trace = s.trace ++ [e] := rfl
@[simp] theorem State.emit_ret (s : State) (e : Event) : (s.emit e).ret = s.ret := rfl
@[simp] theorem State.emit_inbox (s : State) (e : Event) : (s.emit e).inbox = s.inbox := rfl
@[simp] theorem State.emit_answers (s : State) (e : Event) : (s.emit e).answers = s.answers := rfl
@[simp] theorem State.emit_freeIdx (s : State) (e : Event) : (s.emit e).freeIdx = s.freeIdx := rfl

@[simp] theorem State.beginOp_phase (s : State) : s.beginOp.phase = s.phase := rfl
@[simp] theorem State.beginOp_devType (s : State) : s.beginOp.devType = s.devType := rfl
@[simp] theorem State.beginOp_pad (s : State) : s.beginOp.pad = s.pad := rfl
@[simp] theorem State.beginOp_mouse (s : State) : s.beginOp.mouse = s.mouse := rfl
@[simp] theorem State.beginOp_kbd (s : State) : s.beginOp.kbd = s.kbd := rfl
@[simp] theorem State.beginOp_rumble (s : State) : s.beginOp.rumble = s.rumble := rfl
@[simp] theorem State.beginOp_pins (s : State) : s.beginOp.pins = s.pins := rfl
@[simp] theorem State.beginOp_trace (s : State) : s.beginOp.trace = [] := rfl
@[simp] theorem State.beginOp_ret (s : State) : s.beginOp.ret = Ret.none := rfl
@[simp] theorem State.beginOp_inbox (s : State) : s.beginOp.inbox = s.inbox := rfl
@[simp] theorem State.beginOp_answers (s : State) : s.beginOp.answers = s.answers := rfl
@[simp] theorem State.beginOp_freeIdx (s : State) : s.beginOp.freeIdx = s.freeIdx := rfl

@[simp] theorem State.returning_phase (s : State) (v : Ret) : (s.returning v).phase = s.phase := rfl
@[simp] theorem State.returning_devType (s : State) (v : Ret) : (s.returning v).devType = s.devType := rfl
@[simp] theorem State.returning_pad (s : State) (v : Ret) : (s.returning v).pad = s.pad := rfl
@[simp] theorem State.returning_mouse (s : State) (v : Ret) : (s.returning v).mouse = s.mouse := rfl
@[simp] theorem State.returning_kbd (s : State) (v : Ret) : (s.returning v).kbd = s.kbd := rfl
@[simp] theorem State.returning_rumble (s : State) (v : Ret) : (s.returning v).rumble = s.rumble := rfl
@[simp] theorem State.returning_pins (s : State) (v : Ret) : (s.returning v).pins = s.pins := rfl
@[simp] theorem State.returning_trace (s : State) (v : Ret) : (s.returning v).trace = s.trace := rfl
@[simp] theorem State.returning_ret (s : State) (v : Ret) : (s.returning v).ret = v := rfl
@[simp] theorem State.returning_inbox (s : State) (v : Ret) : (s.returning v).inbox = s.inbox := rfl
@[simp] theorem State.returning_answers (s : State) (v : Ret) : (s.returning v).answers = s.answers := rfl
@[simp] theorem State.returning_freeIdx (s : State) (v : Ret) : (s.returning v).freeIdx = s.freeIdx := rfl

@[simp] theorem State.issue_phase (s : State) (f : Frame) : (s.issue f).phase = s.phase := rfl
@[simp] theorem State.issue_devType (s : State) (f : Frame) : (s.issue f).devType = s.devType := rfl
@[simp] theorem State.issue_pad (s : State) (f : Frame) : (s.issue f).pad = s.pad := rfl
@[simp] theorem State.issue_mouse (s : State) (f : Frame) : (s.issue f).mouse = s.mouse := rfl
@[simp] theorem State.issue_kbd (s : State) (f : Frame) : (s.issue f).kbd = s.kbd := rfl
@[simp] theorem State.issue_rumble (s : State) (f : Frame) : (s.issue f).rumble = s.rumble := rfl
@[simp] theorem State.issue_pins (s : State) (f : Frame) : (s.issue f).pins = s.pins := rfl
@[simp] theorem State.issue_trace (s : State) (f : Frame) : (s.issue f).trace = s.trace := rfl
@[simp] theorem State.issue_ret (s : State) (f : Frame) : (s.issue f).ret = s.ret := rfl
@[simp] theorem State.issue_inbox (s : State) (f : Frame) : (s.issue f).inbox = f :: s.inbox := rfl
@[simp] theorem State.issue_answers (s : State) (f : Frame) : (s.issue f).answers = s.answers := rfl
@[simp] theorem State.issue_freeIdx (s : State) (f : Frame) : (s.issue f).freeIdx = s.freeIdx := rfl

@[simp] theorem State.consumed_phase (s : State) (n : Nat) : (s.consumed n).phase = s.phase := rfl
@[simp] theorem State.consumed_devType (s : State) (n : Nat) : (s.consumed n).devType = s.devType := rfl
@[simp] theorem State.consumed_pad (s : State) (n : Nat) : (s.consumed n).pad = s.pad := rfl
@[simp] theorem State.consumed_mouse (s : State) (n : Nat) : (s.consumed n).mouse = s.mouse := rfl
@[simp] theorem State.consumed_kbd (s : State) (n : Nat) : (s.consumed n).kbd = s.kbd := rfl
@[simp] theorem State.consumed_rumble (s : State) (n : Nat) : (s.consumed n).rumble = s.rumble := rfl
@[simp] theorem State.consumed_pins (s : State) (n : Nat) : (s.consumed n).pins = s.pins := rfl
@[simp] theorem State.consumed_trace (s : State) (n : Nat) : (s.consumed n).trace = s.trace := rfl
@[simp] theorem State.consumed_ret (s : State) (n : Nat) : (s.consumed n).ret = s.ret := rfl
@[simp] theorem State.consumed_inbox (s : State) (n : Nat) : (s.consumed n).inbox = s.inbox := rfl
@[simp] theorem State.consumed_answers (s : State) (n : Nat) : (s.consumed n).answers = s.answers.drop n := rfl
@[simp] theorem State.consumed_freeIdx (s : State) (n : Nat) : (s.consumed n).freeIdx = s.freeIdx + (n - s.answers.length) := rfl

@[simp] theorem pinWrite_phase (p : OutPin) (v : Bit) (s : State) : (pinWrite p v s).phase = s.phase := rfl
@[simp] theorem pinWrite_devType (p : OutPin) (v : Bit) (s : State) : (pinWrite p v s).devType = s.devType := rfl
@[simp] theorem pinWrite_pad (p : OutPin) (v : Bit) (s : State) : (pinWrite p v s).pad = s.pad := rfl
@[simp] theorem pinWrite_mouse (p : OutPin) (v : Bit) (s : State) : (pinWrite p v s).mouse = s.mouse := rfl
@[simp] theorem pinWrite_kbd (p : OutPin) (v : Bit) (s : State) : (pinWrite p v s).kbd = s.kbd := rfl
@[simp] theorem pinWrite_rumble (p : OutPin) (v : Bit) (s : State) : (pinWrite p v s).rumble = s.rumble := rfl
@[simp] theorem pinWrite_pins (p : OutPin) (v : Bit) (s : State) : (pinWrite p v s).pins = s.pins.setOut p v := rfl
@[simp] theorem pinWrite_trace (p : OutPin) (v : Bit) (s : State) : (pinWrite p v s).trace = s.trace ++ [.write p v] := rfl
@[simp] theorem pinWrite_ret (p : OutPin) (v : Bit) (s : State) : (pinWrite p v s).ret = s.ret := rfl
@[simp] theorem pinWrite_inbox (p : OutPin) (v : Bit) (s : State) : (pinWrite p v s).inbox = s.inbox := rfl
@[simp] theorem pinWrite_answers (p : OutPin) (v : Bit) (s : State) : (pinWrite p v s).answers = s.answers := rfl
@[simp] theorem pinWrite_freeIdx (p : OutPin) (v : Bit) (s : State) : (pinWrite p v s).freeIdx = s.freeIdx := rfl

@[simp] theorem delay_phase (n : Nat) (s : State) : (delay n s).phase = s.phase := rfl
@[simp] theorem delay_devType (n : Nat) (s : State) : (delay n s).devType = s.devType := rfl
@[simp] theorem delay_pad (n : Nat) (s : State) : (delay n s).pad = s.pad := rfl
@[simp] theorem delay_mouse (n : Nat) (s : State) : (delay n s).mouse = s.mouse := rfl
@[simp] theorem delay_kbd (n : Nat) (s : State) : (delay n s).kbd = s.kbd := rfl
@[simp] theorem delay_rumble (n : Nat) (s : State) : (delay n s).rumble = s.rumble := rfl
@[simp] theorem delay_pins (n : Nat) (s : State) : (delay n s).pins = s.pins := rfl
@[simp] theorem delay_trace (n : Nat) (s : State) : (delay n s).trace = s.trace ++ [.delay n] := rfl
@[simp] theorem delay_ret (n : Nat) (s : State) : (delay n s).ret = s.ret := rfl
@[simp] theorem delay_inbox (n : Nat) (s : State) : (delay n s).inbox = s.inbox := rfl
@[simp] theorem delay_answers (n : Nat) (s : State) : (delay n s).answers = s.answers := rfl
@[simp] theorem delay_freeIdx (n : Nat) (s : State) : (delay n s).freeIdx = s.freeIdx := rfl

@[simp] theorem setDevice_phase (t : DeviceType) (s : State) : (setDevice t s).phase = s.phase := rfl
@[simp] theorem setDevice_devType (t : DeviceType) (s : State) : (setDevice t s).devType = t := rfl
@[simp] theorem setDevice_pad (t : DeviceType) (s : State) : (setDevice t s).pad = s.pad := rfl
@[simp] theorem setDevice_mouse (t : DeviceType) (s : State) : (setDevice t s).mouse = s.mouse := rfl
@[simp] theorem setDevice_kbd (t : DeviceType) (s : State) : (setDevice t s).kbd = s.kbd := rfl
@[simp] theorem setDevice_rumble (t : DeviceType) (s : State) : (setDevice t s).rumble = s.rumble := rfl
@[simp] theorem setDevice_pins (t : DeviceType) (s : State) : (setDevice t s).pins = s.pins := rfl
@[simp] theorem setDevice_trace (t : DeviceType) (s : State) : (setDevice t s).trace = s.trace := rfl
@[simp] theorem setDevice_ret (t : DeviceType) (s : State) : (setDevice t s).ret = s.ret := rfl
@[simp] theorem setDevice_inbox (t : DeviceType) (s : State) : (setDevice t s).inbox = s.inbox := rfl
@[simp] theorem setDevice_answers (t : DeviceType) (s : State) : (setDevice t s).answers = s.answers := rfl
@[simp] theorem setDevice_freeIdx (t : DeviceType) (s : State) : (setDevice t s).freeIdx = s.freeIdx := rfl

@[simp] theorem disconnect_phase (s : State) : (disconnect s).phase = s.phase := rfl
@[simp] theorem disconnect_devType (s : State) : (disconnect s).devType = DeviceType.none := rfl
@[simp] theorem disconnect_pad (s : State) : (disconnect s).pad = s.pad := rfl
@[simp] theorem disconnect_mouse (s : State) : (disconnect s).mouse = { s.mouse with fails := 0, speed := 0 } := rfl
@[simp] theorem disconnect_kbd (s : State) : (disconnect s).kbd = s.kbd := rfl
@[simp] theorem disconnect_rumble (s : State) : (disconnect s).rumble = s.rumble := rfl
@[simp] theorem disconnect_pins (s : State) : (disconnect s).pins = s.pins := rfl
@[simp] theorem disconnect_trace (s : State) : (disconnect s).trace = s.trace := rfl
@[simp] theorem disconnect_ret (s : State) : (disconnect s).ret = s.ret := rfl
@[simp] theorem disconnect_inbox (s : State) : (disconnect s).inbox = s.inbox := rfl
@[simp] theorem disconnect_answers (s : State) : (disconnect s).answers = s.answers := rfl
@[simp] theorem disconnect_freeIdx (s : State) : (disconnect s).freeIdx = s.freeIdx := rfl

@[simp] theorem resetFields_phase (s : State) : (resetFields s).phase = s.phase := rfl
@[simp] theorem resetFields_devType (s : State) : (resetFields s).devType = s.devType := rfl
@[simp] theorem resetFields_pad (s : State) : (resetFields s).pad = .released := rfl
@[simp] theorem resetFields_mouse (s : State) : (resetFields s).mouse = { s.mouse with x := mouseCenter, y := mouseCenter } := rfl
@[simp] theorem resetFields_kbd (s : State) : (resetFields s).kbd = s.kbd := rfl
@[simp] theorem resetFields_rumble (s : State) : (resetFields s).rumble = s.rumble := rfl
@[simp] theorem resetFields_pins (s : State) : (resetFields s).pins = s.pins := rfl
@[simp] theorem resetFields_trace (s : State) : (resetFields s).trace = s.trace := rfl
@[simp] theorem resetFields_ret (s : State) : (resetFields s).ret = s.ret := rfl
@[simp] theorem resetFields_inbox (s : State) : (resetFields s).inbox = s.inbox := rfl
@[simp] theorem resetFields_answers (s : State) : (resetFields s).answers = s.answers := rfl
@[simp] theorem resetFields_freeIdx (s : State) : (resetFields s).freeIdx = s.freeIdx := rfl

@[simp] theorem clearScancodes_phase (s : State) : (clearScancodes s).phase = s.phase := rfl
@[simp] theorem clearScancodes_devType (s : State) : (clearScancodes s).devType = s.devType := rfl
@[simp] theorem clearScancodes_pad (s : State) : (clearScancodes s).pad = s.pad := rfl
@[simp] theorem clearScancodes_mouse (s : State) : (clearScancodes s).mouse = s.mouse := rfl
@[simp] theorem clearScancodes_kbd (s : State) : (clearScancodes s).kbd = { s.kbd with buf := Vector.replicate 16 0, len := 0 } := rfl
@[simp] theorem clearScancodes_rumble (s : State) : (clearScancodes s).rumble = s.rumble := rfl
@[simp] theorem clearScancodes_pins (s : State) : (clearScancodes s).pins = s.pins := rfl
@[simp] theorem clearScancodes_trace (s : State) : (clearScancodes s).trace = s.trace := rfl
@[simp] theorem clearScancodes_ret (s : State) : (clearScancodes s).ret = s.ret := rfl
@[simp] theorem clearScancodes_inbox (s : State) : (clearScancodes s).inbox = s.inbox := rfl
@[simp] theorem clearScancodes_answers (s : State) : (clearScancodes s).answers = s.answers := rfl
@[simp] theorem clearScancodes_freeIdx (s : State) : (clearScancodes s).freeIdx = s.freeIdx := rfl

@[simp] theorem speedUpdate_phase (f : BitVec 2) (s : State) : (speedUpdate f s).phase = s.phase := rfl
@[simp] theorem speedUpdate_devType (f : BitVec 2) (s : State) : (speedUpdate f s).devType = s.devType := rfl
@[simp] theorem speedUpdate_pad (f : BitVec 2) (s : State) : (speedUpdate f s).pad = s.pad := rfl
@[simp] theorem speedUpdate_mouse (f : BitVec 2) (s : State) : (speedUpdate f s).mouse = updateSpeed Config.mouseFailThreshold f s.mouse := rfl
@[simp] theorem speedUpdate_kbd (f : BitVec 2) (s : State) : (speedUpdate f s).kbd = s.kbd := rfl
@[simp] theorem speedUpdate_rumble (f : BitVec 2) (s : State) : (speedUpdate f s).rumble = s.rumble := rfl
@[simp] theorem speedUpdate_pins (f : BitVec 2) (s : State) : (speedUpdate f s).pins = s.pins := rfl
@[simp] theorem speedUpdate_trace (f : BitVec 2) (s : State) : (speedUpdate f s).trace = s.trace := rfl
@[simp] theorem speedUpdate_ret (f : BitVec 2) (s : State) : (speedUpdate f s).ret = s.ret := rfl
@[simp] theorem speedUpdate_inbox (f : BitVec 2) (s : State) : (speedUpdate f s).inbox = s.inbox := rfl
@[simp] theorem speedUpdate_answers (f : BitVec 2) (s : State) : (speedUpdate f s).answers = s.answers := rfl
@[simp] theorem speedUpdate_freeIdx (f : BitVec 2) (s : State) : (speedUpdate f s).freeIdx = s.freeIdx := rfl

@[simp] theorem PinState.setOut_clk (p : PinState) (v : Bit) : p.setOut .clk v = { p with clkOut := .driven v } := rfl
@[simp] theorem PinState.setOut_latch (p : PinState) (v : Bit) : p.setOut .latch v = { p with latchOut := .driven v } := rfl
@[simp] theorem PinState.setOut_io (p : PinState) (v : Bit) : p.setOut .io v = { p with ioOut := .driven v } := rfl
@[simp] theorem PinState.setDir_clk (p : PinState) (d : PinDir) : p.setDir .clk d = { p with clkDir := d } := rfl
@[simp] theorem PinState.setDir_latch (p : PinState) (d : PinDir) : p.setDir .latch d = { p with latchDir := d } := rfl
@[simp] theorem PinState.setDir_io (p : PinState) (d : PinDir) : p.setDir .io d = { p with ioDir := d } := rfl
@[simp] theorem PinState.setDir_d0 (p : PinState) (d : PinDir) : p.setDir .d0 d = { p with d0Dir := d } := rfl
@[simp] theorem PinState.setDir_d1 (p : PinState) (d : PinDir) : p.setDir .d1 d = { p with d1Dir := d } := rfl

end Sys2Proof.Machine
end

