-- ==== Sys2Proof/Laws/Ops.lean ====
section
/-! SUPPORT. The algebra the proofs about a read cycle rest on: every bus operation takes a state `s` to one form,
`s.ran k events pins cursor kbd` (`k` answers consumed, events appended, and the three things the bus operations write),
and two such runs compose. -/

namespace Sys2Proof.Machine

/-! ## Answers -/

theorem State.answer_eq (s : State) : s.answer = s.answerAt 0 := by
  unfold State.answer State.answerAt
  cases s.answers <;> simp

theorem State.dropAnswer_eq (s : State) : s.dropAnswer = s.consumed 1 := by
  unfold State.dropAnswer State.consumed
  cases h : s.answers with
  | nil => simp
  | cons b rest => simp

@[simp] theorem State.consumed_zero (s : State) : s.consumed 0 = s := by
  simp [State.consumed]

@[simp] theorem State.consumed_consumed (s : State) (a b : Nat) : (s.consumed a).consumed b = s.consumed (a + b) := by
  simp only [State.consumed, List.drop_drop, List.length_drop, State.mk.injEq, true_and]
  omega

@[simp] theorem State.answerAt_consumed (s : State) (a n : Nat) : (s.consumed a).answerAt n = s.answerAt (a + n) := by
  simp only [State.answerAt, State.consumed, List.getElem?_drop, List.length_drop]
  rcases Nat.lt_or_ge (a + n) s.answers.length with h | h
  · simp [List.getElem?_eq_getElem h]
  · have : s.answers[a + n]? = none := List.getElem?_eq_none h
    simp only [this, Option.getD_none]
    congr 1
    omega

/-- With the answers listed, the first ones are the listed ones. -/
theorem State.answerAt_append (s : State) (l rest : List Bit) (h : s.answers = l ++ rest) (n : Nat)
    (hn : n < l.length) : s.answerAt n = l[n] := by
  simp [State.answerAt, h, List.getElem?_append_left hn, List.getElem?_eq_getElem hn]

theorem State.valueAt_getLsbD (s : State) (off n m : Nat) :
    (s.valueAt off n).getLsbD m = (decide (m < n) && s.answerAt (off + m)) := by
  induction n with
  | zero => simp [State.valueAt]
  | succ n ih =>
    rw [State.valueAt, BitVec.getLsbD_cons, ih]
    by_cases h : m = n
    · simp [h]
    · simp only [h, if_false]
      congr 1
      simp only [decide_eq_decide]
      omega

/-! ## The common form of a bus operation -/

/-- `k` answers consumed, `events` appended, and the pins, the rumble cursor and the keyboard state as given. -/
def State.ran (s : State) (k : Nat) (events : List Event) (pins : PinState) (cursor : BitVec 4) (kbd : KeyboardState) :
    State :=
  { s.consumed k with
    trace := s.trace ++ events
    pins := pins
    rumble := { s.rumble with cursor := cursor }
    kbd := kbd }

section
variable (s : State) (k : Nat) (es : List Event) (ps : PinState) (c : BitVec 4) (kb : KeyboardState)

@[simp] theorem State.ran_phase : (s.ran k es ps c kb).phase = s.phase := rfl
@[simp] theorem State.ran_devType : (s.ran k es ps c kb).devType = s.devType := rfl
@[simp] theorem State.ran_pad : (s.ran k es ps c kb).pad = s.pad := rfl
@[simp] theorem State.ran_mouse : (s.ran k es ps c kb).mouse = s.mouse := rfl
@[simp] theorem State.ran_kbd : (s.ran k es ps c kb).kbd = kb := rfl
@[simp] theorem State.ran_pins : (s.ran k es ps c kb).pins = ps := rfl
@[simp] theorem State.ran_ret : (s.ran k es ps c kb).ret = s.ret := rfl
@[simp] theorem State.ran_inbox : (s.ran k es ps c kb).inbox = s.inbox := rfl
@[simp] theorem State.ran_trace : (s.ran k es ps c kb).trace = s.trace ++ es := rfl
@[simp] theorem State.ran_rumble : (s.ran k es ps c kb).rumble = { s.rumble with cursor := c } := rfl
@[simp] theorem State.ran_answers : (s.ran k es ps c kb).answers = s.answers.drop k := rfl
@[simp] theorem State.ran_freeIdx : (s.ran k es ps c kb).freeIdx = s.freeIdx + (k - s.answers.length) := rfl

@[simp] theorem State.ran_answerAt (n : Nat) : (s.ran k es ps c kb).answerAt n = s.answerAt (k + n) :=
  s.answerAt_consumed k n

@[simp] theorem State.ran_valueAt (off n : Nat) : (s.ran k es ps c kb).valueAt off n = s.valueAt (k + off) n := by
  induction n with
  | zero => rfl
  | succ n ih => simp only [State.valueAt, ih, State.ran_answerAt, Nat.add_assoc]

@[simp] theorem State.ran_dibitEvents (off : Nat) : (s.ran k es ps c kb).dibitEvents off = s.dibitEvents (k + off) := by
  simp [State.dibitEvents, Nat.add_assoc]

@[simp] theorem State.ran_dibitTrace (off n : Nat) :
    (s.ran k es ps c kb).dibitTrace off n = s.dibitTrace (k + off) n := by
  simp [State.dibitTrace, Nat.add_assoc]

/-- Two runs compose. -/
@[simp] theorem State.ran_ran (k' : Nat) (es' : List Event) (ps' : PinState) (c' : BitVec 4) (kb' : KeyboardState) :
    (s.ran k es ps c kb).ran k' es' ps' c' kb' = s.ran (k + k') (es ++ es') ps' c' kb' := by
  simp only [State.ran, State.consumed, List.drop_drop, List.length_drop, List.append_assoc, State.mk.injEq, true_and]
  omega

end

/-- A state is its own run of length 0. -/
theorem State.ran_self (s : State) : s.ran 0 [] s.pins s.rumble.cursor s.kbd = s := by
  simp [State.ran]

/-! ## The primitives in the common form -/

theorem pinWrite_eq (p : OutPin) (v : Bit) (s : State) :
    pinWrite p v s = s.ran 0 [.write p v] (s.pins.setOut p v) s.rumble.cursor s.kbd := by
  simp [pinWrite, State.emit, State.ran]

theorem delay_eq (n : Nat) (s : State) : delay n s = s.ran 0 [.delay n] s.pins s.rumble.cursor s.kbd := by
  simp [delay, State.emit, State.ran]

theorem pinRead_eq (p : InPin) (s : State) :
    pinRead p s = (s.answerAt 0, s.ran 1 [.read p (s.answerAt 0)] s.pins s.rumble.cursor s.kbd) := by
  simp [pinRead, State.answer_eq, State.dropAnswer_eq, State.emit, State.ran]

theorem clearScancodes_eq (s : State) :
    clearScancodes s =
      s.ran 0 [] s.pins s.rumble.cursor { s.kbd with buf := Vector.replicate 16 0, len := 0 } := by
  simp [clearScancodes, State.ran]

end Sys2Proof.Machine
end

