-- ==== Sys2Proof/Laws/Transport.lean ====
section
/-! SUPPORT. What `latch_and_prime`, `shift_bit` and `shift_dibit` do, each said once in the common form. -/

namespace Sys2Proof.Machine

theorem speedRequested_eq (s : State) :
    speedRequested s.devType s.mouse.speed s.mouse.fails Config.mouseFailThreshold = s.requestsSpeed := rfl

/-- The pins after `latch_and_prime`. -/
def PinState.latched (p : PinState) (request : Bool) : PinState :=
  { p with clkOut := if request then .driven true else p.clkOut, latchOut := .driven false }

theorem latchAndPrime_eq (s : State) :
    latchAndPrime s = s.ran 0 s.latchTrace (s.pins.latched s.requestsSpeed) s.rumble.cursor s.kbd := by
  unfold latchAndPrime
  simp only [speedRequested_eq]
  by_cases h : s.requestsSpeed <;>
    simp [h, speedRequest, pinWrite_eq, delay_eq, State.latchTrace, PinState.latched, tDwell]

/-- The events `sendRumbleBit` emits. -/
def State.rumbleEvents (s : State) : List Event :=
  if s.rumble.active then [.write .io (s.rumble.frame.getLsbD s.rumble.cursor.toNat)] else []

/-- The cursor after `n` calls of `shift_bit`. -/
def RumbleState.cursorAfter (r : RumbleState) (n : Nat) : BitVec 4 :=
  if r.active then r.cursor - BitVec.ofNat 4 n else r.cursor

/-- The pins after `n` calls of `shift_bit`. -/
def State.pinsSampled (s : State) (n : Nat) : PinState :=
  if n = 0 then s.pins
  else { s.pins with
    clkOut := .driven true
    ioOut := if s.rumble.active then
      .driven (s.rumble.frame.getLsbD (s.rumble.cursor - BitVec.ofNat 4 (n - 1)).toNat) else s.pins.ioOut }

theorem sendRumbleBit_eq (s : State) :
    sendRumbleBit s = s.ran 0 s.rumbleEvents
      (if s.rumble.active then
        { s.pins with ioOut := .driven (s.rumble.frame.getLsbD s.rumble.cursor.toNat) } else s.pins)
      (s.rumble.cursorAfter 1) s.kbd := by
  unfold sendRumbleBit State.rumbleEvents RumbleState.cursorAfter
  by_cases h : s.rumble.active
  · simp [h, pinWrite_eq, State.ran, nextCursor_eq]
  · simp [h, State.ran_self]

theorem shiftBit_eq (p : InPin) (s : State) :
    shiftBit p s = (s.answerAt 0, s.ran 1
      (s.rumbleEvents ++ [.write .clk false, .delay 12, .read p (s.answerAt 0), .write .clk true, .delay 12])
      (s.pinsSampled 1) (s.rumble.cursorAfter 1) s.kbd) := by
  unfold shiftBit State.pinsSampled
  by_cases h : s.rumble.active <;>
    simp [h, sendRumbleBit_eq, pinWrite_eq, delay_eq, pinRead_eq, tDwell]

theorem shiftDibit_eq (s : State) :
    shiftDibit s = (mkDibit (s.answerAt 0) (s.answerAt 1),
      s.ran 2 (s.dibitEvents 0) { s.pins with clkOut := .driven true } s.rumble.cursor s.kbd) := by
  simp [shiftDibit, pinWrite_eq, delay_eq, pinRead_eq, tDwell, State.dibitEvents]

end Sys2Proof.Machine
end

