-- ==== Sys2Proof/Laws/Keyboard.lean ====
section
/-! SUPPORT. What each stage of the keyboard sub-read does, said once: the dibit loop, the ID loop, the payload loop, and
the three tails against the frame formats of Safety.lean. -/

namespace Sys2Proof.Machine

theorem State.dibitTrace_succ (s : State) (off k : Nat) :
    s.dibitTrace off (k + 1) = s.dibitEvents off ++ s.dibitTrace (off + 2) k := by
  simp only [State.dibitTrace, List.range_succ_eq_map, List.flatMap_cons, List.flatMap_map, Nat.mul_zero, Nat.add_zero]
  congr 2
  funext j
  congr 1
  omega

@[simp] theorem State.dibitTrace_zero (s : State) (off : Nat) : s.dibitTrace off 0 = [] := rfl

theorem State.dibitTrace_add (s : State) (off a b : Nat) :
    s.dibitTrace off (a + b) = s.dibitTrace off a ++ s.dibitTrace (off + 2 * a) b := by
  induction a generalizing off with
  | zero => simp
  | succ a ih =>
    rw [show a + 1 + b = (a + b) + 1 by omega, State.dibitTrace_succ, State.dibitTrace_succ, ih, List.append_assoc]
    congr 3
    omega

/-- The pins after clock pulses, if there were any. -/
def PinState.clocked (p : PinState) (any : Bool) : PinState :=
  { p with clkOut := if any then .driven true else p.clkOut }

@[simp] theorem PinState.clocked_clocked (p : PinState) (a b : Bool) : (p.clocked a).clocked b = p.clocked (a || b) := by
  cases a <;> cases b <;> rfl

@[simp] theorem PinState.clocked_false (p : PinState) : p.clocked false = p := rfl

theorem shiftDibits_state {n : Nat} (k j : Nat) (v : BitVec n) (s : State) :
    (shiftDibits k j v s).2 =
      s.ran (2 * k) (s.dibitTrace 0 k) (s.pins.clocked (decide (0 < k))) s.rumble.cursor s.kbd := by
  induction k generalizing j v s with
  | zero => simp [shiftDibits, State.ran_self]
  | succ k ih =>
    rw [shiftDibits]
    simp only [ih, shiftDibit_eq, State.ran_ran, State.ran_dibitTrace, State.ran_pins, State.ran_rumble, State.ran_kbd,
      State.dibitTrace_succ]
    congr 1
    · omega
    · simp [PinState.clocked]

theorem shiftDibits_value {n : Nat} (k j : Nat) (v : BitVec n) (s : State) (h : 2 * (j + k) ≤ n) (m : Nat) :
    (shiftDibits k j v s).1.getLsbD m =
      if 2 * j ≤ m ∧ m < 2 * (j + k) then s.answerAt (m - 2 * j) else v.getLsbD m := by
  induction k generalizing j v s with
  | zero => rw [if_neg (by omega)]; rfl
  | succ k ih =>
    rw [shiftDibits]
    simp only [shiftDibit_eq]
    rw [ih (j + 1) _ _ (by omega), putDibit_mkDibit_getLsbD _ _ _ _ _ (by omega)]
    by_cases h1 : m = 2 * j
    · subst h1
      rw [if_neg (by omega), if_pos rfl, if_pos (by omega)]
      simp
    · by_cases h2 : m = 2 * j + 1
      · subst h2
        rw [if_neg (by omega), if_neg (by omega), if_pos rfl, if_pos (by omega)]
        congr 1
        omega
      · rw [if_neg h1, if_neg h2]
        by_cases h3 : 2 * (j + 1) ≤ m ∧ m < 2 * (j + 1 + k)
        · rw [if_pos h3, if_pos (by omega), State.ran_answerAt]
          congr 1
          omega
        · rw [if_neg h3, if_neg (by omega)]

/-- A whole value of `2k` bits: the answers in order, least significant first (R32). -/
theorem shiftDibits_eq (k : Nat) (s : State) :
    shiftDibits k 0 (0 : BitVec (2 * k)) s = (s.valueAt 0 (2 * k),
      s.ran (2 * k) (s.dibitTrace 0 k) (s.pins.clocked (decide (0 < k))) s.rumble.cursor s.kbd) := by
  refine Prod.ext ?_ (shiftDibits_state k 0 _ s)
  apply BitVec.eq_of_getLsbD_eq
  intro m hm
  rw [shiftDibits_value k 0 0 s (by omega), State.valueAt_getLsbD, if_pos (by omega)]
  simp [hm]

/-- One scancode byte (R89 step 6). -/
theorem shiftByte_eq (s : State) :
    shiftDibits 4 0 (0 : Byte) s = (s.valueAt 0 8,
      s.ran 8 (s.dibitTrace 0 4) (s.pins.clocked true) s.rumble.cursor s.kbd) := shiftDibits_eq 4 s

/-- The scancode count (R89 step 4). -/
theorem shiftCount_eq (s : State) :
    shiftDibits 2 0 (0 : BitVec 4) s = (s.valueAt 0 4,
      s.ran 4 (s.dibitTrace 0 2) (s.pins.clocked true) s.rumble.cursor s.kbd) := shiftDibits_eq 2 s

/-- The payload loop (R89 step 6): byte `n + i` of the buffer is the `i`-th byte to arrive. -/
theorem shiftPayload_eq (m n : Nat) (s : State) :
    shiftPayload m n s = s.ran (8 * m) (s.dibitTrace 0 (4 * m)) (s.pins.clocked (decide (0 < m))) s.rumble.cursor
      { s.kbd with buf := Vector.ofFn fun i =>
          if n ≤ i.val ∧ i.val < n + m then s.valueAt (8 * (i.val - n)) 8 else s.kbd.buf[i] } := by
  induction m generalizing n s with
  | zero =>
    have h : (Vector.ofFn fun i : Fin 16 =>
        if n ≤ i.val ∧ i.val < n + 0 then s.valueAt (8 * (i.val - n)) 8 else s.kbd.buf[i]) = s.kbd.buf := by
      ext i hi
      rw [Vector.getElem_ofFn, if_neg (by simp only; omega)]
      rfl
    rw [h]
    exact (State.ran_self s).symm
  | succ m ih =>
    rw [shiftPayload]
    simp only [shiftByte_eq]
    have hs : ∀ (es : List Event) (ps : PinState) (kb : KeyboardState),
        ({ s.ran 8 es ps s.rumble.cursor s.kbd with kbd := kb } : State) = s.ran 8 es ps s.rumble.cursor kb :=
      fun _ _ _ => rfl
    rw [hs, ih]
    simp only [State.ran_ran, State.ran_dibitTrace, State.ran_pins, State.ran_rumble, State.ran_kbd,
      State.ran_valueAt, PinState.clocked_clocked]
    have e : s.dibitTrace 0 4 ++ s.dibitTrace (8 + 0) (4 * m) = s.dibitTrace 0 (4 * (m + 1)) := by
      rw [show 4 * (m + 1) = 4 + 4 * m by omega, State.dibitTrace_add]
    rw [e, show 8 + 8 * m = 8 * (m + 1) by omega]
    have hb : (Vector.ofFn fun i : Fin 16 => if n + 1 ≤ i.val ∧ i.val < n + 1 + m then
          s.valueAt (8 + 8 * (i.val - (n + 1))) 8 else (s.kbd.buf.setIfInBounds n (s.valueAt 0 8))[i]) =
        Vector.ofFn fun i => if n ≤ i.val ∧ i.val < n + (m + 1) then s.valueAt (8 * (i.val - n)) 8 else s.kbd.buf[i] := by
      ext1 i hi
      simp only [Vector.getElem_ofFn, Fin.getElem_fin, Vector.getElem_setIfInBounds]
      by_cases h1 : n + 1 ≤ i ∧ i < n + 1 + m
      · rw [if_pos h1, if_pos (by omega)]
        congr 1
        omega
      · rw [if_neg h1]
        by_cases h2 : n = i
        · subst h2
          rw [if_pos rfl, if_pos (by omega)]
          simp
        · rw [if_neg h2, if_neg (by omega)]
    rw [hb]
    simp

theorem idValid_healId (t : DeviceType) (id : Byte) : idValid (healId t id) = idAccepted t id := by
  have h : kbdId = 0x78 := rfl
  have h' : kbdIdGlitch = 0x79 := by decide
  unfold idValid healId idAccepted
  by_cases h1 : id = 0x79#8
  · subst h1
    cases t <;> decide
  · by_cases h2 : id = 0x78#8 <;> simp [h, h', h1, h2]

theorem payloadCount_le (t : DeviceType) (o : Bit) (id : Byte) (c : BitVec 4) : payloadCount t o id c ≤ 15 := by
  unfold payloadCount
  split
  · have := c.isLt; omega
  · omega

/-- Step 6 of R89. -/
theorem readPayload_eq (o : Bit) (t : DeviceType) (id : Byte) (count : BitVec 4) (s : State) :
    readPayload o count (healId t id) s =
      let m := payloadCount t o id count
      s.ran (8 * m) (s.dibitTrace 0 (4 * m)) (s.pins.clocked (decide (0 < m))) s.rumble.cursor
        { s.kbd with
          buf := Vector.ofFn fun i => if i.val < m then s.valueAt (8 * i.val) 8 else s.kbd.buf[i]
          len := if m = 0 then s.kbd.len else BitVec.ofNat 4 m } := by
  have hself : (Vector.ofFn fun i : Fin 16 =>
      if i.val < 0 then s.valueAt (8 * i.val) 8 else s.kbd.buf[i]) = s.kbd.buf := by
    ext i hi
    simp
  simp only [readPayload, payloadFollows, idValid_healId]
  by_cases hc : count = 0
  · have hm : payloadCount t o id count = 0 := by simp [payloadCount, hc]
    rw [if_neg (by simp [hc]), hm]
    simp only [hself]
    exact (State.ran_self s).symm
  · by_cases hp : (!o && idAccepted t id) = true
    · have hm : payloadCount t o id count = count.toNat := by simp [payloadCount, hp]
      have hpos : ¬ count.toNat = 0 := fun e => hc (BitVec.eq_of_toNat_eq (by simpa using e))
      have hg : (!o && decide (count ≠ 0) && idAccepted t id) = true := by
        simp only [Bool.and_eq_true, decide_eq_true_eq] at hp ⊢
        exact ⟨⟨hp.1, hc⟩, hp.2⟩
      rw [if_pos hg]
      simp only [hm, hpos, if_false, shiftPayload_eq, Nat.zero_le, true_and, Nat.zero_add, Nat.sub_zero,
        BitVec.ofNat_toNat, BitVec.setWidth_eq]
      rfl
    · have hm : payloadCount t o id count = 0 := by simp [payloadCount, hp]
      have hg : ¬ (!o && decide (count ≠ 0) && idAccepted t id) = true := by
        intro h
        simp only [Bool.and_eq_true] at h hp
        exact hp ⟨h.1.1, h.2⟩
      rw [if_neg hg, hm]
      simp only [hself]
      exact (State.ran_self s).symm

/-! ## The end states of Safety.lean in the common form -/

@[simp] theorem State.ran_kbdAfter (s : State) (k : Nat) (es : List Event) (ps : PinState) (c : BitVec 4) (id : Byte)
    (off m : Nat) : (s.ran k es ps c s.kbd).kbdAfter id off m = s.kbdAfter id (k + off) m := by
  simp [State.kbdAfter, Nat.add_assoc]

/-- The pins after the last I/O write of a sub-read. -/
def PinState.rested (p : PinState) (any : Bool) : PinState := { p.clocked any with ioOut := .driven true }

theorem State.headerDone_eq (s : State) (o : Bit) (id : Byte) (count : BitVec 4) :
    s.headerDone o id count =
      s.ran (8 * payloadCount s.devType o id count)
        (s.dibitTrace 0 (4 * payloadCount s.devType o id count) ++ [.write .io true])
        (s.pins.rested (decide (0 < payloadCount s.devType o id count))) s.rumble.cursor
        (s.kbdAfter id 0 (payloadCount s.devType o id count)) := by
  rcases Nat.eq_zero_or_pos (payloadCount s.devType o id count) with h | h
  · simp [State.headerDone, State.ran, PinState.rested, PinState.clocked, h]
  · simp [State.headerDone, State.ran, PinState.rested, PinState.clocked, h, Nat.ne_of_gt h]

theorem State.idDone_eq (s : State) (o : Bit) (id : Byte) :
    s.idDone o id =
      s.ran (4 + 8 * payloadCount s.devType o id (s.valueAt 0 4))
        ((if s.kbd.capsLock then [] else [Event.write .io true]) ++ s.dibitTrace 0 2 ++
          s.dibitTrace 4 (4 * payloadCount s.devType o id (s.valueAt 0 4)) ++ [.write .io true])
        (s.pins.rested true) s.rumble.cursor (s.kbdAfter id 4 (payloadCount s.devType o id (s.valueAt 0 4))) := by
  simp [State.idDone, State.ran, PinState.rested, PinState.clocked]

theorem State.subreadDone_eq (s : State) (o : Bit) :
    s.subreadDone o = s.ran (12 + 8 * s.scancodesAt o 0) (s.subreadTrace o 0) (s.pins.rested true) s.rumble.cursor
      (s.packetAt o 0) := rfl

/-! ## The stages -/

/-- Steps 5 to 8 of R89: the end state is the one read off the answers. -/
theorem afterHeader_eq (o : Bit) (id : Byte) (count : BitVec 4) (s : State) :
    afterHeader o id count s = (idAccepted s.devType id, s.headerDone o id count) := by
  simp only [afterHeader, idValid_healId, readPayload_eq, pinWrite_eq, State.ran_ran, State.ran_pins, State.ran_rumble,
    State.ran_kbd, Prod.mk.injEq, true_and, State.headerDone_eq]
  simp [State.ran, State.kbdAfter, PinState.rested]

/-- Step 3 of R89. -/
theorem capsEdge_eq (s : State) :
    (if s.kbd.capsLock then s else pinWrite .io true s) =
      s.ran 0 (if s.kbd.capsLock then [] else [.write .io true])
        { s.pins with ioOut := if s.kbd.capsLock then s.pins.ioOut else .driven true } s.rumble.cursor s.kbd := by
  by_cases h : s.kbd.capsLock
  · simp only [h, if_true]
    exact (State.ran_self s).symm
  · simp [h, pinWrite_eq]

/-- Steps 3 to 8 of R89. -/
theorem afterId_eq (o : Bit) (id : Byte) (s : State) :
    afterId o id s = (idAccepted s.devType id, s.idDone o id) := by
  unfold afterId
  simp only [capsEdge_eq, shiftCount_eq, afterHeader_eq, State.headerDone_eq, State.idDone_eq, State.ran_devType,
    State.ran_ran, State.ran_valueAt, State.ran_dibitTrace, State.ran_pins, State.ran_rumble, State.ran_kbd,
    State.ran_kbdAfter, Prod.mk.injEq, true_and, Nat.zero_add, Nat.add_zero, List.append_assoc]
  simp [PinState.rested, PinState.clocked]

/-- The early exit at its literal position (R90 (c)): the partial ID has four bits, so bit 4 is 0 and no stream takes
it. -/
theorem earlyExit_literal (j : Nat) (id : Byte) (h : j = 1 → id.getLsbD 4 = false) :
    earlyExit kbdEarlyAfter j id = false := by
  unfold earlyExit kbdEarlyAfter
  by_cases hj : j = 1
  · have h2 : id ≠ earlyPartial := by
      rintro rfl
      exact absurd (h hj) (by decide)
    simp [h2]
  · have : ¬ j + 1 = 2 := by omega
    simp [this]

/-- Four dibits put into an ID byte are the eight answers, least significant first. -/
theorem putDibits_eq (s : State) :
    putDibit (putDibit (putDibit (putDibit (0 : Byte) 0 (mkDibit (s.answerAt 0) (s.answerAt 1))) 1
      (mkDibit (s.answerAt 2) (s.answerAt 3))) 2 (mkDibit (s.answerAt 4) (s.answerAt 5))) 3
      (mkDibit (s.answerAt 6) (s.answerAt 7)) = s.valueAt 0 8 := by
  apply BitVec.eq_of_getLsbD_eq
  intro m hm
  rw [State.valueAt_getLsbD, putDibit_mkDibit_getLsbD _ _ _ _ _ (by decide),
    putDibit_mkDibit_getLsbD _ _ _ _ _ (by decide), putDibit_mkDibit_getLsbD _ _ _ _ _ (by decide),
    putDibit_mkDibit_getLsbD _ _ _ _ _ (by decide)]
  interval_cases m <;> rfl

theorem putDibits_bit4 (a b c d : Bit) :
    (putDibit (putDibit (0 : Byte) 0 (mkDibit a b)) 1 (mkDibit c d)).getLsbD 4 = false := by
  revert a b c d
  decide

/-- Step 2 of R89 with the early exit at its literal position: four dibits, the ID-only write after the first. -/
theorem shiftId_eq (o : Bit) (s : State) :
    shiftId kbdEarlyAfter o 4 0 0 s = (s.valueAt 0 8,
      s.ran 8 (s.dibitTrace 0 1 ++ (if o then [.write .io true] else []) ++ s.dibitTrace 2 3)
        { s.pins with clkOut := .driven true, ioOut := if o then .driven true else s.pins.ioOut } s.rumble.cursor
        s.kbd) := by
  simp only [shiftId, shiftDibit_eq]
  rw [if_neg (by rw [earlyExit_literal _ _ (by simp)]; simp),
    if_neg (by rw [earlyExit_literal _ _ (fun _ => putDibits_bit4 _ _ _ _)]; simp),
    if_neg (by rw [earlyExit_literal _ _ (by simp)]; simp), if_neg (by rw [earlyExit_literal _ _ (by simp)]; simp)]
  rw [← putDibits_eq]
  cases o <;> simp [pinWrite_eq, State.dibitTrace_succ]

/-- The fourth dibit put after a partial ID of three (R90 (b)). -/
theorem putDibit_three (partialId : BitVec 6) (s : State) :
    putDibit (partialId.zeroExtend 8) 3 (mkDibit (s.answerAt 0) (s.answerAt 1)) = (s.valueAt 0 2 ++ partialId : Byte) := by
  apply BitVec.eq_of_getLsbD_eq
  intro m hm
  rw [putDibit_mkDibit_getLsbD _ _ _ _ _ (by decide), BitVec.getLsbD_append, State.valueAt_getLsbD]
  by_cases h : m < 6
  · rw [if_neg (by omega), if_neg (by omega), if_pos h]
    simp [hm]
  · have : m = 6 ∨ m = 7 := by omega
    rcases this with rfl | rfl <;> rfl

/-- A sub-read that takes no early exit at position 3 (R90 (b)): one dibit, then the rest with the whole ID. -/
theorem afterPartial_eq (o : Bit) (partialId : BitVec 6) (s : State) :
    afterPartial o partialId s =
      let id : Byte := s.valueAt 0 2 ++ partialId
      (idAccepted s.devType id, ({ s.consumed 2 with
        pins := { s.pins with clkOut := .driven true }
        trace := s.trace ++ s.dibitEvents 0 } : State).idDone o id) := by
  unfold afterPartial
  simp only [shiftId, shiftDibit_eq, putDibit_three]
  rw [if_neg (by rw [earlyExit_literal _ _ (by simp)]; simp), if_neg (by simp), afterId_eq]
  rfl

/-- `kbd_subread` (R89): the end state is the one read off the answers. -/
theorem kbdSubread_eq (o : Bit) (s : State) :
    kbdSubread o s = (idAccepted s.devType (s.valueAt 0 8), s.subreadDone o) := by
  unfold kbdSubread subread
  simp only [clearScancodes_eq, pinWrite_eq, shiftId_eq, afterId_eq, State.idDone_eq, State.subreadDone_eq,
    State.ran_devType, State.ran_ran, State.ran_valueAt, State.ran_dibitTrace, State.ran_pins, State.ran_rumble,
    State.ran_kbd, Prod.mk.injEq, true_and, Nat.zero_add, Nat.add_zero, List.append_assoc]
  have hk : ∀ (es : List Event) (ps : PinState) (id : Byte) (off m : Nat), m ≤ 15 →
      (s.ran 8 es ps s.rumble.cursor { s.kbd with buf := Vector.replicate 16 0, len := 0 }).kbdAfter id off m =
        { buf := Vector.ofFn fun i => if i.val < m then s.valueAt (8 + off + 8 * i.val) 8 else 0
          len := BitVec.ofNat 4 m
          valid := idAccepted s.devType id
          capsLock := s.kbd.capsLock } := by
    intro es ps id off m hm
    have h0 : m = 0 → 0#4 = BitVec.ofNat 4 m := fun h => by rw [h]
    simpa [State.kbdAfter, Nat.add_assoc] using h0
  rw [hk _ _ _ _ _ (payloadCount_le _ _ _ _)]
  simp [State.subreadTrace, State.packetAt, State.scancodesAt, PinState.rested, PinState.clocked]
  congr 1
  omega

end Sys2Proof.Machine
end

