-- ==== Sys2Proof/Laws/Decoder.lean ====
section
/-! SUPPORT. What the data word, the classification, `read`, re-detection and `poll` do, each said once. -/

namespace Sys2Proof.Machine

/-! ## The data word -/

/-- The run of `n` calls of `shift_bit` on data0. -/
def State.sampled (s : State) (n : Nat) : State :=
  s.ran n (s.sampleTrace 0 n) (s.pinsSampled n) (s.rumble.cursorAfter n) s.kbd

theorem RumbleState.cursorAfter_zero (r : RumbleState) : r.cursorAfter 0 = r.cursor := by
  unfold RumbleState.cursorAfter
  split <;> simp

theorem State.sampled_zero (s : State) : s.sampled 0 = s := by
  unfold State.sampled
  rw [RumbleState.cursorAfter_zero]
  exact s.ran_self

theorem cursor_sub_add (c : BitVec 4) (a b : Nat) :
    c - BitVec.ofNat 4 a - BitVec.ofNat 4 b = c - BitVec.ofNat 4 (a + b) := by
  rw [BitVec.ofNat_add, sub_sub]

theorem State.sampled_sampleEvents (s : State) (a off i : Nat) :
    (s.sampled a).sampleEvents off i = s.sampleEvents off (a + i) := by
  have h : a + (off + i) = off + (a + i) := by omega
  by_cases hr : s.rumble.active <;>
    simp [State.sampleEvents, State.sampled, RumbleState.cursorAfter, hr, cursor_sub_add, h]

theorem State.sampled_sampleTrace (s : State) (a off n : Nat) :
    s.sampleTrace off (a + n) = s.sampleTrace off a ++ (s.sampled a).sampleTrace off n := by
  simp [State.sampleTrace, List.range_add, List.flatMap_append, List.flatMap_map, State.sampled_sampleEvents]

theorem State.sampled_sampled (s : State) (a b : Nat) : (s.sampled a).sampled b = s.sampled (a + b) := by
  have ht := s.sampled_sampleTrace a 0 b
  have hc : (s.sampled a).rumble.cursorAfter b = s.rumble.cursorAfter (a + b) := by
    by_cases hr : s.rumble.active <;> simp [State.sampled, RumbleState.cursorAfter, hr, cursor_sub_add]
  have hp : (s.sampled a).pinsSampled b = s.pinsSampled (a + b) := by
    rcases Nat.eq_zero_or_pos b with rfl | hb
    · simp [State.pinsSampled, State.sampled]
    · have h1 : b ≠ 0 := by omega
      have h3 : a + (b - 1) = a + b - 1 := by omega
      by_cases hr : s.rumble.active <;>
        simp [State.pinsSampled, State.sampled, RumbleState.cursorAfter, hr, h1, h3, cursor_sub_add] <;>
        (split <;> simp)
  rw [State.sampled, hp, hc]
  conv_rhs => rw [State.sampled, ht]
  simp [State.sampled]

/-- `shift_bit` on data0 is a run of one sample. -/
theorem shiftBit_d0 (s : State) : shiftBit .d0 s = (s.answerAt 0, s.sampled 1) := by
  have e : s.rumbleEvents ++
      [.write .clk false, .delay 12, .read .d0 (s.answerAt 0), .write .clk true, .delay 12] = s.sampleTrace 0 1 := by
    have hm : s.rumble.cursor.toNat % 16 = s.rumble.cursor.toNat := Nat.mod_eq_of_lt s.rumble.cursor.isLt
    simp [State.sampleTrace, State.sampleEvents, State.rumbleEvents, hm]
  rw [shiftBit_eq, e]
  rfl

theorem sampleBits_state (n i : Nat) (r : DataWord) (s : State) : (sampleBits n i r s).2 = s.sampled n := by
  induction n generalizing i r s with
  | zero => exact s.sampled_zero.symm
  | succ n ih =>
    rw [sampleBits]
    simp only [ih, shiftBit_d0, State.sampled_sampled]
    rw [Nat.add_comm]

theorem sampleBits_value (n i : Nat) (r : DataWord) (s : State) (h : i + n ≤ 32) (m : Nat) :
    (sampleBits n i r s).1.getLsbD m =
      if i ≤ m ∧ m < i + n then s.answerAt (m - i) else r.getLsbD m := by
  induction n generalizing i r s with
  | zero => rw [if_neg (by omega)]; rfl
  | succ n ih =>
    rw [sampleBits]
    simp only [shiftBit_d0]
    rw [ih (i + 1) _ _ (by omega), putBit_getLsbD]
    by_cases h1 : m = i
    · subst h1
      rw [if_neg (by omega), if_pos rfl, if_pos (by omega)]
      simp
      omega
    · rw [if_neg h1]
      by_cases h2 : i + 1 ≤ m ∧ m < i + 1 + n
      · rw [if_pos h2, if_pos (by omega), State.sampled, State.ran_answerAt]
        congr 1
        omega
      · rw [if_neg h2, if_neg (by omega)]

/-- The length of the data word when its first sample is answer 0 (R36). -/
def State.wordLength (s : State) : Nat := if s.answerAt 15 then 16 else 32

/-- Step 3 of `read` (R31, R36): the samples, least significant first, 16 or 32 of them. -/
theorem shiftWord_eq (s : State) :
    shiftWord s = ((s.valueAt 0 s.wordLength).setWidth 32, s.sampled s.wordLength) := by
  have hb : ∀ m, (sampleBits 16 0 0 s).1.getLsbD m = (decide (m < 16) && s.answerAt m) := by
    intro m
    rw [sampleBits_value _ _ _ _ (by decide)]
    by_cases h : m < 16 <;> simp [h]
  have hl : longFrame (sampleBits 16 0 0 s).1 = !s.answerAt 15 := by
    rw [longFrame, hb]
    simp
  unfold shiftWord State.wordLength
  simp only [hl]
  cases h15 : s.answerAt 15
  · simp only [Bool.not_false, if_true, Bool.false_eq_true, if_false]
    refine Prod.ext ?_ ?_
    · apply BitVec.eq_of_getLsbD_eq
      intro m hm
      simp only [BitVec.getLsbD_setWidth, State.valueAt_getLsbD]
      rw [sampleBits_value _ _ _ _ (by decide), sampleBits_state, hb]
      simp only [State.sampled, State.ran_answerAt]
      by_cases h1 : 16 ≤ m
      · have h2 : 16 + (m - 16) = m := by omega
        simp [h1, hm, h2]
      · have h3 : m < 16 := by omega
        simp [h1, hm, h3]
    · simp only [sampleBits_state, State.sampled_sampled]
  · simp only [Bool.not_true, Bool.false_eq_true, if_false, if_true]
    refine Prod.ext ?_ (sampleBits_state _ _ _ _)
    apply BitVec.eq_of_getLsbD_eq
    intro m hm
    rw [hb]
    simp only [BitVec.getLsbD_setWidth, State.valueAt_getLsbD]
    simp [hm]

/-! ## Classification -/

theorem isDisconnected_eq (k hint : Bit) (w : DataWord) :
    isDisconnected k hint w = (!k && hint && decide (w &&& 0x0000FFFF = 0)) := by
  have h : matchesDisconnected w = decide (w &&& 0x0000FFFF = 0) := by
    rw [Bool.eq_iff_iff, matchesDisconnected_iff, decide_eq_true_eq]
  rw [isDisconnected, h]

theorem classifyWord_eq (w : DataWord) (k : Bit) : classifyWord w k = typeByMasks k w := by
  unfold classifyWord typeByMasks
  simp only [matchesController_iff, matchesNes_iff, matchesMouse_iff]

theorem updateSpeed_eq (f : BitVec 2) (m : MouseState) :
    updateSpeed Config.mouseFailThreshold f m = m.afterSpeed f := by
  have h : clampSpeed f = speedOf f := rfl
  unfold updateSpeed MouseState.afterSpeed stagnant
  simp only [h, speedCodeFast, Bool.and_eq_true, decide_eq_true_eq, ne_eq, decide_not, Bool.not_eq_true',
    decide_eq_false_iff_not, and_assoc]

/-- The rest of `read` from step 6 on is the classification row of the word (log 7). -/
theorem finishRead_decode (k hint : Bit) (w : DataWord) (s : State) :
    exec (decodeDataWord k hint w) s = .next ((finishRead k hint w s).2.returning (.word (finishRead k hint w s).1)) := by
  unfold decodeDataWord finishRead classifyWord
  split
  · rfl
  · split
    · rfl
    · split
      · rfl
      · split
        · rfl
        · split <;> rfl

/-! ## The read cycle -/

@[simp] theorem State.ran_sampleEvents (s : State) (k : Nat) (es : List Event) (ps : PinState) (off i : Nat) :
    (s.ran k es ps s.rumble.cursor s.kbd).sampleEvents off i = s.sampleEvents (k + off) i := by
  simp [State.sampleEvents, Nat.add_assoc]

@[simp] theorem State.ran_sampleTrace (s : State) (k : Nat) (es : List Event) (ps : PinState) (off n : Nat) :
    (s.ran k es ps s.rumble.cursor s.kbd).sampleTrace off n = s.sampleTrace (k + off) n := by
  simp [State.sampleTrace]

/-- 16 or 32 samples take the cursor once or twice round its ring (R22 (b), R38). -/
theorem RumbleState.cursorAfter_frame (r : RumbleState) (n : Nat) (h : n = 16 ∨ n = 32) : r.cursorAfter n = r.cursor := by
  have h1 : BitVec.ofNat 4 n = 0 := by rcases h with rfl | rfl <;> rfl
  unfold RumbleState.cursorAfter
  rw [h1]
  split <;> simp

theorem State.ran_subreadDone (s : State) (k : Nat) (es : List Event) (ps : PinState) (o : Bit) :
    (s.ran k es ps s.rumble.cursor s.kbd).subreadDone o =
      s.ran (k + (12 + 8 * s.scancodesAt o k)) (es ++ s.subreadTrace o k) (ps.rested true) s.rumble.cursor
        (s.packetAt o k) := by
  rw [State.subreadDone_eq]
  simp [State.scancodesAt, State.subreadTrace, State.packetAt, Nat.add_assoc]
  rfl

/-- The pins between operations once a read cycle has completed (R24). -/
def PinState.atRest (p : PinState) : PinState :=
  { p with clkOut := .driven true, latchOut := .driven false, ioOut := .driven true }

/-- Steps 1 to 4 of `read`, as one run: hint, latch, data word, keyboard sub-read. -/
theorem readCycle_steps (s : State) :
    readCycle s = finishRead (idAccepted s.devType (s.valueAt (1 + s.frameLength) 8)) (s.answerAt 0) (~~~s.rawWord)
      (s.ran (1 + s.frameLength + (12 + 8 * s.scancodesAt false (1 + s.frameLength))) s.readTrace s.pins.atRest
        s.rumble.cursor (s.packetAt false (1 + s.frameLength))) := by
  have hl : ∀ (es : List Event) (ps : PinState),
      (s.ran 1 es ps s.rumble.cursor s.kbd).wordLength = s.frameLength := by
    intro es ps
    simp [State.wordLength, State.frameLength]
  have hn : s.frameLength = 16 ∨ s.frameLength = 32 := by
    unfold State.frameLength
    split <;> simp
  have h0 : s.frameLength ≠ 0 := by omega
  have hs : ∀ (es : List Event) (ps : PinState),
      (s.ran 1 es ps s.rumble.cursor s.kbd).sampled s.frameLength =
        s.ran (1 + s.frameLength) (es ++ s.sampleTrace 1 s.frameLength)
          ((s.ran 1 es ps s.rumble.cursor s.kbd).pinsSampled s.frameLength) s.rumble.cursor s.kbd := by
    intro es ps
    rw [State.sampled, RumbleState.cursorAfter_frame _ _ hn]
    simp
  have hlt : ∀ (es : List Event) (ps : PinState),
      (s.ran 1 es ps s.rumble.cursor s.kbd).latchTrace = s.latchTrace := fun _ _ => rfl
  have hid : idOnlyStrap = false := rfl
  unfold readCycle
  simp only [pinRead_eq, latchAndPrime_eq, hlt, State.ran_ran, State.ran_rumble, State.ran_kbd, State.ran_pins,
    Nat.add_zero, shiftWord_eq, hl, hs, kbdSubread_eq, hid, State.ran_subreadDone, State.ran_devType, State.ran_valueAt]
  congr 1
  · rw [hl]
    rfl
  · have hp : ∀ (es : List Event) (b : Bool),
        ((s.ran 1 es (s.pins.latched b) s.rumble.cursor s.kbd).pinsSampled s.frameLength).rested true =
          s.pins.atRest := by
      intro es b
      simp [PinState.rested, PinState.clocked, PinState.atRest, PinState.latched, State.pinsSampled, h0]
    rw [hp]
    rfl

theorem readsDisconnected_eq (s : State) :
    isDisconnected (idAccepted s.devType (s.valueAt (1 + s.frameLength) 8)) (s.answerAt 0) (~~~s.rawWord) =
      s.readsDisconnected := isDisconnected_eq _ _ _

/-- `read` (R80): its value and its end state are the ones read off the answers. -/
theorem readCycle_eq (s : State) : readCycle s = (s.readWord, { s.readDone with ret := s.ret }) := by
  rw [readCycle_steps]
  unfold finishRead
  rw [readsDisconnected_eq, classifyWord_eq]
  by_cases hd : s.readsDisconnected
  · have ht : s.readType = .none := by simp [State.readType, hd]
    simp [hd, State.readWord, State.readDone, State.readMouse, ht, disconnect, State.ran, PinState.atRest, Nat.add_assoc]
  · have ht : s.readType =
        typeByMasks (idAccepted s.devType (s.valueAt (1 + s.frameLength) 8)) (~~~s.rawWord) := by
      simp [State.readType, hd]
    simp only [hd, ← ht]
    by_cases hm : s.readType = .mouse
    · simp [hm, hd, State.readWord, State.readDone, State.readMouse, State.ran, PinState.atRest, mouseSpeedUpdate,
        speedUpdate, updateSpeed_eq, setDevice, speedField, Nat.add_assoc]
    · simp [hm, hd, State.readWord, State.readDone, State.readMouse, State.ran, PinState.atRest, setDevice, Nat.add_assoc]

/-! ## What a read cycle does not look at -/

/-- The answers to come are the list and the number of free values drawn: nothing else of a state. -/
theorem State.valueAt_congr {s t : State} (ha : t.answers = s.answers) (hf : t.freeIdx = s.freeIdx) (off n : Nat) :
    t.valueAt off n = s.valueAt off n := by
  induction n with
  | zero => rfl
  | succ n ih => simp only [State.valueAt, ih, State.answerAt, ha, hf]

/-- A read cycle's end state, its trace apart, does not depend on the trace before it, on RumbleState, or on
what was returned before. -/
theorem State.readDone_congr (s : State) (tr : List Event) (r : RumbleState) (q : Ret) :
    ({ s with trace := tr, rumble := r, ret := q } : State).readDone =
      { s.readDone with trace := tr ++ ({ s with trace := tr, rumble := r, ret := q } : State).readTrace, rumble := r } := by
  have hv : ∀ off n, ({ s with trace := tr, rumble := r, ret := q } : State).valueAt off n = s.valueAt off n :=
    by intro off n; apply State.valueAt_congr <;> rfl
  have ha : ∀ n, ({ s with trace := tr, rumble := r, ret := q } : State).answerAt n = s.answerAt n := fun _ => rfl
  have hf : ({ s with trace := tr, rumble := r, ret := q } : State).frameLength = s.frameLength := rfl
  have hw : ({ s with trace := tr, rumble := r, ret := q } : State).rawWord = s.rawWord := by
    change (({ s with trace := tr, rumble := r, ret := q } : State).valueAt 1 s.frameLength).setWidth 32 = _
    rw [hv]
    rfl
  simp only [State.readDone, State.readType, State.readMouse, State.readWord, State.readsDisconnected,
    State.packetAt, State.scancodesAt, State.consumed, hv, ha, hf, hw]
  rfl

theorem State.readWord_congr (s : State) (tr : List Event) (r : RumbleState) (q : Ret) :
    ({ s with trace := tr, rumble := r, ret := q } : State).readWord = s.readWord := by
  have hv : ∀ off n, ({ s with trace := tr, rumble := r, ret := q } : State).valueAt off n = s.valueAt off n :=
    by intro off n; apply State.valueAt_congr <;> rfl
  have ha : ∀ n, ({ s with trace := tr, rumble := r, ret := q } : State).answerAt n = s.answerAt n := fun _ => rfl
  have hf : ({ s with trace := tr, rumble := r, ret := q } : State).frameLength = s.frameLength := rfl
  have hw : ({ s with trace := tr, rumble := r, ret := q } : State).rawWord = s.rawWord := by
    change (({ s with trace := tr, rumble := r, ret := q } : State).valueAt 1 s.frameLength).setWidth 32 = _
    rw [hv]
    rfl
  simp only [State.readWord, State.readsDisconnected, hv, ha, hf, hw]
  rfl

/-- The events of a cycle do not depend on the trace before it. -/
theorem State.readTrace_congr (s : State) (tr : List Event) (q : Ret) :
    ({ s with trace := tr, ret := q } : State).readTrace = s.readTrace := by
  have hv : ∀ off n, ({ s with trace := tr, ret := q } : State).valueAt off n = s.valueAt off n :=
    by intro off n; apply State.valueAt_congr <;> rfl
  have hc : ({ s with trace := tr, ret := q } : State).scancodesAt false (1 + s.frameLength) =
      s.scancodesAt false (1 + s.frameLength) := by
    simp only [State.scancodesAt, hv]
  have hf : ({ s with trace := tr, ret := q } : State).frameLength = s.frameLength := rfl
  simp only [State.readTrace, State.subreadTrace, hf, hc]
  rfl

/-! ## Re-detection and POLL -/

theorem readCycle_ret (s : State) : (readCycle s).2.ret = s.ret := by rw [readCycle_eq]

theorem redetect_ret (s : State) : (redetect s).ret = s.ret := by
  unfold redetect
  simp only
  split <;> simp [readCycle_ret]

theorem demuxByType_ret (w : DataWord) (s : State) : (demuxByType w s).ret = s.ret := by
  unfold demuxByType demuxAs
  split <;> rfl

theorem pollCycle_ret (s : State) : (pollCycle s).ret = s.ret := by
  unfold pollCycle
  split
  · exact redetect_ret s
  · simp only
    split
    · rw [redetect_ret, readCycle_ret]
    · rw [demuxByType_ret, readCycle_ret]

theorem readCycle_phase (s : State) : (readCycle s).2.phase = s.phase := by
  rw [readCycle_eq]
  rfl

theorem redetect_phase (s : State) : (redetect s).phase = s.phase := by
  unfold redetect
  simp only
  split <;> simp [readCycle_phase]

/-- `read` started after other events of the same operation. -/
theorem readCycle_after (s : State) (l : List Event) :
    readCycle { s with trace := l ++ s.trace } =
      ((readCycle s).1, { (readCycle s).2 with trace := l ++ (readCycle s).2.trace }) := by
  have h1 := s.readDone_congr (l ++ s.trace) s.rumble s.ret
  have h2 := s.readWord_congr (l ++ s.trace) s.rumble s.ret
  have h3 := s.readTrace_congr (l ++ s.trace) s.ret
  simp only at h1 h2 h3
  rw [readCycle_eq, readCycle_eq]
  simp only
  rw [h1, h2, h3, List.append_assoc]
  rfl

/-- Re-detection started after other events of the same operation. -/
theorem redetect_after (s : State) (l : List Event) :
    redetect { s with trace := l ++ s.trace } = { redetect s with trace := l ++ (redetect s).trace } := by
  unfold redetect
  have e : setDevice .none { s with trace := l ++ s.trace } =
      { setDevice .none s with trace := l ++ (setDevice .none s).trace } := rfl
  rw [e, readCycle_after]
  simp only
  split <;> rfl

theorem execStart_running (s : State) (h : s.phase = .running) : exec .start s = .next (redetect s.beginOp) := by
  simp only [exec, execStart, whenRunning, h, if_true]

theorem execPoll_running (s : State) (h : s.phase = .running) : exec .poll s = .next (pollCycle s.beginOp) := by
  simp only [exec, execPoll, whenRunning, h, if_true]

/-! ## The raw word, bit by bit -/

theorem State.rawWord_getLsbD (s : State) (i : Nat) (h : i < 32) :
    s.rawWord.getLsbD i = if s.answerAt 16 = true ∧ 16 ≤ i then false else s.answerAt (1 + i) := by
  simp only [State.rawWord, BitVec.getLsbD_setWidth, State.valueAt_getLsbD, h, decide_true, Bool.true_and,
    State.frameLength]
  cases s.answerAt 16
  · simp [h]
  · by_cases h' : i < 16 <;> simp [h']

theorem State.not_rawWord_getLsbD (s : State) (i : Nat) (h : i < 32) :
    (~~~s.rawWord).getLsbD i = if s.answerAt 16 = true ∧ 16 ≤ i then true else !s.answerAt (1 + i) := by
  rw [BitVec.getLsbD_not, s.rawWord_getLsbD i h]
  split <;> simp [h]

/-- A bit of a word that is 0 is 0. -/
theorem getLsbD_of_eq_zero {n : Nat} {v : BitVec n} (h : v = 0) (i : Nat) : v.getLsbD i = false := by
  rw [h]
  simp

/-! ## A tracked POLL -/

theorem State.beginOp_readDone (s : State) : s.beginOp.readDone = { s.readDone with trace := s.readTrace } := by
  have h := s.readDone_congr [] s.rumble .none
  have h3 := s.readTrace_congr [] .none
  simp only at h
  rw [h3] at h
  exact h

theorem State.beginOp_readWord (s : State) : s.beginOp.readWord = s.readWord := s.readWord_congr [] s.rumble .none

/-- POLL with a device tracked (R79). -/
theorem execPoll_tracked (s : State) (hp : s.phase = .running) (hd : s.devType ≠ .none) :
    exec .poll s = .next (
      if s.readWord = 0 then redetect { s.readDone with trace := s.readTrace, ret := .none }
      else demuxByType s.readWord { s.readDone with trace := s.readTrace, ret := .none }) := by
  have hd' : s.beginOp.devType ≠ .none := hd
  rw [execPoll_running s hp, pollCycle, if_neg hd', readCycle_eq, s.beginOp_readDone, s.beginOp_readWord]
  rfl

/-- START (R78), the end state of its read given. -/
theorem redetect_eq (s : State) :
    redetect s =
      let t : State := { (setDevice .none s).readDone with ret := s.ret }
      if t.devType = .none then t else resetFields t := by
  unfold redetect
  rw [readCycle_eq]
  rfl

theorem demuxByType_controller (w : DataWord) (s : State) (h : s.devType = .controller) :
    demuxByType w s = demuxController w s := by
  rw [demuxByType, h, demuxAs]

theorem demuxByType_nes (w : DataWord) (s : State) (h : s.devType = .nes) : demuxByType w s = demuxNes w s := by
  rw [demuxByType, h, demuxAs]

theorem demuxByType_mouse (w : DataWord) (s : State) (h : s.devType = .mouse) : demuxByType w s = demuxMouse w s := by
  rw [demuxByType, h, demuxAs]

theorem demuxByType_keyboard (w : DataWord) (s : State) (h : s.devType = .keyboard) : demuxByType w s = s := by
  rw [demuxByType, h, demuxAs]

theorem demuxByType_none (w : DataWord) (s : State) (h : s.devType = .none) : demuxByType w s = s := by
  rw [demuxByType, h, demuxAs]

/-! ## Patterns that are no row (30_encoding.md R64) -/

/-- Everything the silent outcomes can do. -/
theorem silently_eq (e : DecodeError) (s : State) :
    silently e s = .next (match e with
      | .notAKeyboardId id => { s.idDone false id with ret := .bit (idAccepted s.devType id) }
      | .notAnEarlyPartial partialId =>
        let id : Byte := s.valueAt 0 2 ++ partialId
        { ({ s.consumed 2 with
            pins := { s.pins with clkOut := .driven true }
            trace := s.trace ++ s.dibitEvents 0 } : State).idDone false id with ret := .bit (idAccepted s.devType id) }
      | .notARumbleFrame _ => s
      | .noDemultiplexer t w => demuxAs t w s) := by
  cases e with
  | notAKeyboardId id => simp only [silently, mismatchedId, idOnlyStrap, afterId_eq]; rfl
  | notAnEarlyPartial partialId => simp only [silently, noEarlyExit, idOnlyStrap, afterPartial_eq]; rfl
  | notARumbleFrame _ => rfl
  | noDemultiplexer t w => rfl

/-- Nothing traps: a pattern that is no row always answers a next state. -/
theorem silently_next (e : DecodeError) (s : State) : ∃ t, silently e s = .next t := ⟨_, silently_eq e s⟩

end Sys2Proof.Machine
end

