-- ==== Sys2Proof/Laws/PerInstr.lean ====
section
/-! SUPPORT. A family of statements made per instruction: what the opcode table gives each row.
A row of the table has a frame or is a micro-operation, never both (30_encoding.md R63), and the frame of a row belongs to the
host's format exactly when the row is the host's (R62). -/

namespace Sys2Proof.Laws.TableFormat

open Sys2Proof.Machine

/-- A row has a frame exactly when it is no micro-operation, and the frame is a command exactly for a host row. -/
def Statement (i : Instr) : Prop :=
  (encode i).isSome = !isMicro i ∧ ∀ f, encode i = some f → isCommandFrame f = isHostRow i

theorem init : Statement .init := ⟨rfl, fun _ h => by cases h; rfl⟩

theorem begin : Statement .begin := ⟨rfl, fun _ h => by cases h; rfl⟩

theorem start : Statement .start := ⟨rfl, fun _ h => by cases h; rfl⟩

theorem poll : Statement .poll := ⟨rfl, fun _ h => by cases h; rfl⟩

theorem setCapsLockLed (flag : Bit) : Statement (.setCapsLockLed flag) := ⟨rfl, fun _ h => by cases h; rfl⟩

theorem setRumble (left : Byte) (right : Byte) : Statement (.setRumble left right) := ⟨rfl, fun _ h => by cases h; rfl⟩

theorem reserved67 : Statement .reserved67 := ⟨rfl, fun _ h => by cases h; rfl⟩

theorem reserved8F : Statement .reserved8F := ⟨rfl, fun _ h => by cases h; rfl⟩

theorem classifyDisconnected (w : DataWord) : Statement (.classifyDisconnected w) := ⟨rfl, fun _ h => by cases h; rfl⟩

theorem classifyKeyboard (w : DataWord) : Statement (.classifyKeyboard w) := ⟨rfl, fun _ h => by cases h; rfl⟩

theorem classifyController (w : DataWord) : Statement (.classifyController w) := ⟨rfl, fun _ h => by cases h; rfl⟩

theorem classifyNes (w : DataWord) : Statement (.classifyNes w) := ⟨rfl, fun _ h => by cases h; rfl⟩

theorem classifyMouse (w : DataWord) : Statement (.classifyMouse w) := ⟨rfl, fun _ h => by cases h; rfl⟩

theorem classifyUnknown (w : DataWord) : Statement (.classifyUnknown w) := ⟨rfl, fun _ h => by cases h; rfl⟩

theorem demuxController (w : DataWord) : Statement (.demuxController w) := ⟨rfl, fun _ h => by cases h; rfl⟩

theorem demuxNes (w : DataWord) : Statement (.demuxNes w) := ⟨rfl, fun _ h => by cases h; rfl⟩

theorem demuxMouse (w : DataWord) : Statement (.demuxMouse w) := ⟨rfl, fun _ h => by cases h; rfl⟩

theorem speedSlow : Statement .speedSlow := ⟨rfl, fun _ h => by cases h; rfl⟩

theorem speedFast : Statement .speedFast := ⟨rfl, fun _ h => by cases h; rfl⟩

theorem speedMedium : Statement .speedMedium := ⟨rfl, fun _ h => by cases h; rfl⟩

theorem speedMalformed : Statement .speedMalformed := ⟨rfl, fun _ h => by cases h; rfl⟩

theorem kbdIdMatch : Statement .kbdIdMatch := ⟨rfl, fun _ h => by cases h; rfl⟩

theorem kbdIdHeal : Statement .kbdIdHeal := ⟨rfl, fun _ h => by cases h; rfl⟩

theorem kbdIdEarly : Statement .kbdIdEarly := ⟨rfl, fun _ h => by cases h; rfl⟩

theorem kbdPacket (id : Byte) (count : BitVec 4) : Statement (.kbdPacket id count) := ⟨rfl, fun _ h => by cases h; rfl⟩

theorem rumbleFrame (right : BitVec 4) (left : BitVec 4) : Statement (.rumbleFrame right left) := ⟨rfl, fun _ h => by cases h; rfl⟩

theorem latchAndPrime : Statement .latchAndPrime := ⟨rfl, fun _ h => nomatch h⟩

theorem shiftBit (pin : InPin) : Statement (.shiftBit pin) := ⟨rfl, fun _ h => nomatch h⟩

theorem shiftDibit : Statement .shiftDibit := ⟨rfl, fun _ h => nomatch h⟩

theorem read : Statement .read := ⟨rfl, fun _ h => nomatch h⟩

theorem classify (w : DataWord) (k : Bit) : Statement (.classify w k) := ⟨rfl, fun _ h => nomatch h⟩

theorem mouseSpeedUpdate (w : DataWord) : Statement (.mouseSpeedUpdate w) := ⟨rfl, fun _ h => nomatch h⟩

theorem rev8 (x : Byte) : Statement (.rev8 x) := ⟨rfl, fun _ h => nomatch h⟩

theorem kbdSubread (idOnly : Bit) : Statement (.kbdSubread idOnly) := ⟨rfl, fun _ h => nomatch h⟩

theorem pinWrite (pin : OutPin) (level : Bit) : Statement (.pinWrite pin level) := ⟨rfl, fun _ h => nomatch h⟩

theorem pinRead (pin : InPin) : Statement (.pinRead pin) := ⟨rfl, fun _ h => nomatch h⟩

theorem delay (micros : Nat) : Statement (.delay micros) := ⟨rfl, fun _ h => nomatch h⟩

theorem pinConfig (pin : Pin) (dir : Dir) (pull : Bit) : Statement (.pinConfig pin dir pull) := ⟨rfl, fun _ h => nomatch h⟩

end Sys2Proof.Laws.TableFormat
end

