-- ==== Sys2Proof/Laws/Rumble.lean ====
section
/-! SUPPORT. What `set_rumble` and the frame row do, said once. -/

namespace Sys2Proof.Machine

theorem rumbleRedundant_iff (left right storedLeft storedRight : BitVec 4) :
    rumbleRedundant left right storedLeft storedRight = true ↔ left = storedLeft ∧ right = storedRight := by
  simp [rumbleRedundant]

/-- The storing half of R94: the one place that loads RumbleState. -/
theorem loadRumble_eq (right left : BitVec 4) (s : State) :
    loadRumble right left s = { s with rumble :=
      if left = s.rumble.left ∧ right = s.rumble.right then s.rumble
      else ⟨left, right, mkRumbleFrame right left, 15, true⟩ } := by
  unfold loadRumble
  by_cases h : left = s.rumble.left ∧ right = s.rumble.right
  · rw [if_pos ((rumbleRedundant_iff _ _ _ _).2 h), if_pos h]
  · rw [if_neg (fun e => h ((rumbleRedundant_iff _ _ _ _).1 e)), if_neg h]

/-- The scaled operand is the operand divided by 16 (R94). -/
theorem scaleRumble_toNat (x : Byte) : (scaleRumble x).toNat = x.toNat / 16 := by
  simp only [scaleRumble, BitVec.truncate_eq_setWidth, BitVec.toNat_setWidth, BitVec.toNat_ushiftRight,
    Nat.shiftRight_eq_div_pow]
  omega

/-- The three parts of the frame do not overlap (R88 (e)). -/
theorem mkRumbleFrame_eq_add (right left : BitVec 4) :
    mkRumbleFrame right left = BitVec.ofNat 16 (0x7200 + right.toNat * 16 + left.toNat) := by
  revert right left
  decide

end Sys2Proof.Machine
end

