-- ==== Sys2Proof/Laws/Trace.lean ====
section
/-! SUPPORT. The I/O levels and the lengths of the traces of Safety.lean. -/

namespace Sys2Proof.Machine

/-! ## I/O levels -/

@[simp] theorem ioLevels_nil : ioLevels [] = [] := rfl

@[simp] theorem ioLevels_append (a b : List Event) : ioLevels (a ++ b) = ioLevels a ++ ioLevels b :=
  List.filterMap_append

@[simp] theorem ioLevels_write_io (v : Bit) (l : List Event) : ioLevels (.write .io v :: l) = v :: ioLevels l := rfl

@[simp] theorem ioLevels_read (p : InPin) (v : Bit) (l : List Event) : ioLevels (.read p v :: l) = ioLevels l := rfl

theorem ioLevels_flatMap {α : Type} (f : α → List Event) (l : List α) :
    ioLevels (l.flatMap f) = l.flatMap fun x => ioLevels (f x) := by
  induction l with
  | nil => rfl
  | cons x l ih => simp [ih]

@[simp] theorem State.ioLevels_dibitEvents (s : State) (off : Nat) : ioLevels (s.dibitEvents off) = [] := rfl

/-- A dibit writes nothing on the I/O line (R73). -/
@[simp] theorem State.ioLevels_dibitTrace (s : State) (off k : Nat) : ioLevels (s.dibitTrace off k) = [] := by
  simp [State.dibitTrace, ioLevels_flatMap]

/-- Nor does the latch (R71). -/
@[simp] theorem State.ioLevels_latchTrace (s : State) : ioLevels s.latchTrace = [] := by
  unfold State.latchTrace
  split <;> rfl

/-- A sample writes the rumble bit of an active channel (R72). -/
theorem State.ioLevels_sampleTrace (s : State) (off n : Nat) :
    ioLevels (s.sampleTrace off n) =
      if s.rumble.active then
        (List.range n).map fun i => s.rumble.frame.getLsbD (s.rumble.cursor - BitVec.ofNat 4 i).toNat
      else [] := by
  by_cases h : s.rumble.active
  · rw [if_pos h, State.sampleTrace, ioLevels_flatMap, List.map_eq_flatMap]
    congr 1
    funext i
    simp [State.sampleEvents, h, ioLevels]
  · rw [if_neg h, State.sampleTrace, ioLevels_flatMap]
    simp [State.sampleEvents, h, ioLevels]

/-- The index of the `i`-th bit of the frame sent from cursor 15 (R33). -/
theorem cursor_from_fifteen (i : Nat) : (15 - BitVec.ofNat 4 i : BitVec 4).toNat = 15 - i % 16 := by
  have h : i % 16 < 16 := Nat.mod_lt _ (by decide)
  rw [BitVec.toNat_sub]
  simp only [BitVec.toNat_ofNat, Nat.reducePow]
  change (16 - i % 16 + 15) % 16 = _
  omega

/-- The levels of a sub-read (R56). -/
theorem State.ioLevels_subreadTrace (s : State) (o : Bit) (off : Nat) :
    ioLevels (s.subreadTrace o off) =
      [false] ++ (if o then [true] else []) ++ (if s.kbd.capsLock then [] else [true]) ++ [true] := by
  cases o <;> cases h : s.kbd.capsLock <;> simp [State.subreadTrace, h]

/-! ## Clock pulses and I/O levels -/

@[simp] theorem pulsesAndIo_append (a b : List Event) : pulsesAndIo (a ++ b) = pulsesAndIo a ++ pulsesAndIo b :=
  List.filter_append a b

@[simp] theorem pulsesAndIo_nil : pulsesAndIo [] = [] := rfl

@[simp] theorem pulsesAndIo_write_io (v : Bit) (l : List Event) :
    pulsesAndIo (.write .io v :: l) = .write .io v :: pulsesAndIo l := rfl

/-- Each dibit is one clock pulse (R73). -/
@[simp] theorem State.pulsesAndIo_dibitTrace (s : State) (off k : Nat) :
    pulsesAndIo (s.dibitTrace off k) = List.replicate k (.write .clk false) := by
  induction k with
  | zero => rfl
  | succ k ih =>
    rw [State.dibitTrace, List.range_succ, List.flatMap_append, pulsesAndIo_append, ← State.dibitTrace, ih,
      List.replicate_succ', List.flatMap_singleton]
    rfl

/-- The pulses and the levels of a sub-read (R55, R56). -/
theorem State.pulsesAndIo_subreadTrace (s : State) (o : Bit) (off : Nat) :
    pulsesAndIo (s.subreadTrace o off) =
      [.write .io false] ++ [.write .clk false] ++ (if o then [.write .io true] else []) ++
        List.replicate 3 (.write .clk false) ++ (if s.kbd.capsLock then [] else [.write .io true]) ++
        List.replicate (2 + 4 * s.scancodesAt o off) (.write .clk false) ++ [.write .io true] := by
  rw [← List.replicate_append_replicate]
  cases o <;> cases h : s.kbd.capsLock <;> simp [State.subreadTrace, h]

/-! ## Lengths -/

@[simp] theorem State.dibitTrace_length (s : State) (off k : Nat) : (s.dibitTrace off k).length = 6 * k := by
  simp [State.dibitTrace, State.dibitEvents, List.length_flatMap, Nat.mul_comm]

theorem State.sampleTrace_length (s : State) (off n : Nat) :
    (s.sampleTrace off n).length = if s.rumble.active then 6 * n else 5 * n := by
  by_cases h : s.rumble.active <;>
    simp [State.sampleTrace, State.sampleEvents, List.length_flatMap, h, Nat.mul_comm]

theorem State.latchTrace_length (s : State) : s.latchTrace.length = if s.requestsSpeed then 7 else 4 := by
  by_cases h : s.requestsSpeed <;> simp [State.latchTrace, h]

theorem State.subreadTrace_length_le (s : State) (o : Bit) (off : Nat) : (s.subreadTrace o off).length ≤ 400 := by
  have h : s.scancodesAt o off ≤ 15 := payloadCount_le _ _ _ _
  cases o <;> cases hc : s.kbd.capsLock <;> simp [State.subreadTrace, hc] <;> omega

/-- A read cycle is at most `1 + 7 + 32 * 6 + 66 * 6 + 4 = 600` events (R99). -/
theorem State.readTrace_length_le (s : State) : s.readTrace.length ≤ 600 := by
  have h1 := s.subreadTrace_length_le false (1 + s.frameLength)
  have h2 : s.latchTrace.length ≤ 7 := by rw [s.latchTrace_length]; split <;> omega
  have h3 : (s.sampleTrace 1 s.frameLength).length ≤ 192 := by
    rw [s.sampleTrace_length]
    have : s.frameLength ≤ 32 := by unfold State.frameLength; split <;> omega
    split <;> omega
  simp only [State.readTrace, List.length_append, List.length_cons, List.length_nil]
  omega

end Sys2Proof.Machine
end

