-- ==== Sys2Proof/Laws/Stimulus.lean ====
section
/-! SUPPORT. Listed answers read as values: from a list of stimuli to the sequence of answers the claims speak of. -/

namespace Sys2Proof.Machine

@[simp] theorem wireBits_length {w : Nat} (n : Nat) (v : BitVec w) : (wireBits n v).length = n := by
  simp [wireBits]

@[simp] theorem noKeyboard_length : noKeyboard.length = 12 := rfl

/-- An answer inside a listed piece of the stimulus. -/
theorem State.answerAt_piece {s : State} {before piece after : List Bit} (h : s.answers = before ++ (piece ++ after))
    (i : Nat) (hi : i < piece.length) : s.answerAt (before.length + i) = piece[i] := by
  have hn : before.length + i < (before ++ piece).length := by
    rw [List.length_append]
    omega
  rw [s.answerAt_append (before ++ piece) after (by rw [h, List.append_assoc]) _ hn]
  simp

theorem State.answerAt_wireBits {s : State} {before after : List Bit} {w n : Nat} {v : BitVec w}
    (h : s.answers = before ++ (wireBits n v ++ after)) (i : Nat) (hi : i < n) :
    s.answerAt (before.length + i) = v.getLsbD i := by
  rw [State.answerAt_piece h i (by simpa using hi)]
  simp [wireBits]

/-- A value listed bit by bit is read back (R31, R32). -/
theorem State.valueAt_wireBits {s : State} {before after : List Bit} {n : Nat} {v : BitVec n}
    (h : s.answers = before ++ (wireBits n v ++ after)) : s.valueAt before.length n = v := by
  apply BitVec.eq_of_getLsbD_eq
  intro i hi
  rw [State.valueAt_getLsbD, State.answerAt_wireBits h i hi]
  simp [hi]

theorem State.valueAt_replicate_true {s : State} {before after : List Bit} {k n : Nat} (hk : n ≤ k)
    (h : s.answers = before ++ (List.replicate k true ++ after)) : s.valueAt before.length n = BitVec.allOnes n := by
  apply BitVec.eq_of_getLsbD_eq
  intro i hi
  rw [State.valueAt_getLsbD, State.answerAt_piece h i (by rw [List.length_replicate]; omega)]
  simp [hi]

end Sys2Proof.Machine
end

