-- ==== Sys2Proof/Tests/Slice0.lean ====
section
/-! SUPPORT. Small tests. Every expected value is from the spec: the worked example of a rule, a vector of
95_test_vectors.md (V1 to V9, T1 to T8, X1 to X10, M1 to M5, K1 to K16, B1 to B6), or a word written out from 30_encoding.md.
The last part shows, for each statement with hypotheses, a concrete state and operands that meet them. -/

set_option maxRecDepth 20000

namespace Sys2Proof.Tests

open Sys2Proof.Machine

/-! ## Helpers -/

/-- The answers of one read cycle: `<h | r/n | kb>` (95_test_vectors.md, Conventions). -/
def stimulus (h : Bit) (n : Nat) (r : DataWord) (kb : List Dibit) : List Bit :=
  h :: ((List.range n).map r.getLsbD ++ kb.flatMap fun d => [d.getLsbD 0, d.getLsbD 1])

/-- Whether a result is a next state with a property. -/
def nextIs (o : Result) (p : State → Bool) : Bool :=
  match o with
  | .next s => p s
  | .fault _ => false
  | .refused _ => false

/-- No keyboard: both data lines high for six pulses. -/
def none6 : List Dibit := [3, 3, 3, 3, 3, 3]

/-- A running block that tracks `t`, with the given answers to come. -/
def tracking (t : DeviceType) (answers : List Bit) : State :=
  { State.reset with
    phase := .running
    devType := t
    pins := ⟨.output, .output, .output, .inputPullUp, .inputPullUp, .unwritten, .unwritten, .unwritten⟩
    answers := answers }

/-- The answers of a list of dibits. -/
def dibits (kb : List Dibit) : List Bit := kb.flatMap fun d => [d.getLsbD 0, d.getLsbD 1]

/-- A bus with nothing attached, for `n` read cycles. -/
def allHigh (n : Nat) : List Bit := List.replicate (29 * n) true

/-! ## WellFormed refuses an ill-formed term, one for each check -/

theorem test_wf_classifyDisconnected : WellFormed (.classifyDisconnected 0xFFFF0001) = false := by decide
theorem test_wf_classifyController : WellFormed (.classifyController 0xFFFF1000) = false := by decide
theorem test_wf_classifyNes : WellFormed (.classifyNes 0xFFFFFFFF) = false := by decide
theorem test_wf_classifyMouse : WellFormed (.classifyMouse 0x00009000) = false := by decide
theorem test_wf_classifyUnknown : WellFormed (.classifyUnknown 0xFFFF0009) = false := by decide
theorem test_wf_demuxController : WellFormed (.demuxController 0x00008000) = false := by decide
theorem test_wf_demuxNes : WellFormed (.demuxNes 0x0000F700) = false := by decide
theorem test_wf_demuxMouse : WellFormed (.demuxMouse 0xFFFF0009) = false := by decide

/-! ## Words written out from the encodings of the spec -/

/-- CMD20 (R62, section 2.7): operand bits that an operation does not use are ignored. -/
theorem test_decode_commands :
    decode (.command 0b0000_00000000_00000000) = .ok .init ∧
    decode (.command 0b0000_10101011_11001101) = .ok .init ∧
    decode (.command 0b0001_00000000_00000000) = .ok .begin ∧
    decode (.command 0b0010_00000000_00000000) = .ok .start ∧
    decode (.command 0b0011_00000000_00000000) = .ok .poll ∧
    decode (.command 0b0100_00000000_00000000) = .ok (.setCapsLockLed false) ∧
    decode (.command 0b0100_11111111_00000001) = .ok (.setCapsLockLed true) ∧
    decode (.command 0b0101_11111111_00000000) = .ok (.setRumble 255 0) ∧
    decode (.command 0b0101_00000000_10000000) = .ok (.setRumble 0 128) := by decide

/-- The reserved op codes at both ends of their ranges (R64 (e)). -/
theorem test_decode_reserved :
    decode (.command 0b0110_00000000_00000000) = .ok .reserved67 ∧
    decode (.command 0b0111_11111111_11111111) = .ok .reserved67 ∧
    decode (.command 0b1000_00000000_00000000) = .ok .reserved8F ∧
    decode (.command 0b1111_11111111_11111111) = .ok .reserved8F := by decide

/-- The data word (R59, V2, X6): `k`, `hint`, the word. -/
theorem test_decode_dataWords :
    decode (.dataWord false true 0xFFFF0000) = .ok (.classifyDisconnected 0xFFFF0000) ∧
    decode (.dataWord true true 0xFFFF0000) = .ok (.classifyKeyboard 0xFFFF0000) ∧
    decode (.dataWord false false 0xFFFF0000) = .ok (.classifyController 0xFFFF0000) ∧
    decode (.dataWord false true 0xFFFF0001) = .ok (.classifyController 0xFFFF0001) ∧
    decode (.dataWord false false 0xFFFFFF41) = .ok (.classifyNes 0xFFFFFF41) ∧
    decode (.dataWord false false 0xA1148200) = .ok (.classifyMouse 0xA1148200) ∧
    decode (.dataWord false false 0xFFFFFFFF) = .ok (.classifyUnknown 0xFFFFFFFF) ∧
    decode (.dataWord false false 0x0000F700) = .ok (.classifyUnknown 0x0000F700) := by decide

/-- The demultiplexers (R84, R85, R86, R79). -/
theorem test_decode_demux :
    decode (.demux .controller 0b1111_1111_1111_1111_0000_0000_0000_1001) = .ok (.demuxController 0xFFFF0009) ∧
    decode (.demux .nes 0b1111_1111_1111_1111_1111_1111_0100_0001) = .ok (.demuxNes 0xFFFFFF41) ∧
    decode (.demux .mouse 0b1010_0001_0001_0100_1000_0010_0000_0000) = .ok (.demuxMouse 0xA1148200) ∧
    decode (.demux .keyboard 0xFFFF0000) = .error (.noDemultiplexer .keyboard 0xFFFF0000) ∧
    decode (.demux .mouse 0x00009000) = .error (.noDemultiplexer .mouse 0x00009000) := by decide

/-- MOUSE_SPEED2 (R60). -/
theorem test_decode_speed :
    decode (.mouseSpeed 0b00) = .ok .speedSlow ∧ decode (.mouseSpeed 0b01) = .ok .speedFast ∧
    decode (.mouseSpeed 0b10) = .ok .speedMedium ∧ decode (.mouseSpeed 0b11) = .ok .speedMalformed := by decide

/-- KBD_ID8 and KBD_PARTIAL6 (R61), with the nearest values that are none. -/
theorem test_decode_keyboardId :
    decode (.kbdId 0b01111000) = .ok .kbdIdMatch ∧ decode (.kbdId 0b01111001) = .ok .kbdIdHeal ∧
    decode (.kbdId 0b01111010) = .error (.notAKeyboardId 0x7A) ∧
    decode (.kbdId 0b01110111) = .error (.notAKeyboardId 0x77) ∧
    decode (.kbdPartial 0b011110) = .ok .kbdIdEarly ∧
    decode (.kbdPartial 0b001110) = .error (.notAnEarlyPartial 0x0E) := by decide

/-- KBD_PACKET (R55), arrival order, so the count stands above the ID; K3: ID 0x78, count 3. -/
theorem test_decode_packet : decode (.kbdPacket 0b0011_01111000) = .ok (.kbdPacket 0x78 3) := by decide

/-- RUMBLE16 (R57, R94's example 0x7280): `0 1 1 1 0 0 1 0 r3 r2 r1 r0 l3 l2 l1 l0`. -/
theorem test_decode_rumble :
    decode (.rumble 0b01110010_1000_0000) = .ok (.rumbleFrame 8 0) ∧
    decode (.rumble 0b01110010_0000_1111) = .ok (.rumbleFrame 0 15) ∧
    decode (.rumble 0b01110011_0000_1111) = .error (.notARumbleFrame 0x730F) := by decide

/-- Bare words of the table, by their lengths (log 2). -/
theorem test_decodeTableWord :
    decodeTableWord 24 0x5FF00 = some (.setRumble 255 0) ∧ decodeTableWord 32 0x0000FF00 = some (.classifyNes 0xFF00) ∧
    decodeTableWord 8 0b11 = some .speedMalformed ∧ decodeTableWord 8 0b011110 = some .kbdIdEarly ∧
    decodeTableWord 8 0b01111001 = some .kbdIdHeal ∧ decodeTableWord 16 0x0078 = some (.kbdPacket 0x78 0) ∧
    decodeTableWord 16 0x7287 = some (.rumbleFrame 8 7) := by decide

/-- A word placed where the step fetches is what the step runs. -/
theorem test_step_runs_the_placed_word :
    nextIs (step (State.reset.withFetchWord 24 0x5FF00)) (fun t => t.rumble = ⟨0xF, 0, 0x720F, 15, true⟩) = true := by decide

/-- K10 from the ID on: 0x7A is a mismatch, the count is shifted, no scancode, and the step goes on. -/
theorem test_step_mismatched_id :
    nextIs (step ((tracking .keyboard (dibits [1, 0, 2, 1, 1, 0])).withFetchWord 8 0b01111010))
      (fun t => t.ret = .bit false ∧ t.kbd.valid = false ∧ t.kbd.len = 0 ∧ t.answers.length = 8) = true := by decide

/-- V5, position 3: partial 0x0E and a fourth dibit 0 is a mismatch; partial 0x38 and a fourth dibit 1 is 0x78. -/
theorem test_step_no_early_exit :
    nextIs (step ({ State.reset with answers := dibits [0, 0, 0] }.issue (.kbdPartial 0x0E))) (fun t => t.ret = .bit false) = true ∧
    nextIs (step ({ State.reset with answers := dibits [1, 0, 0] }.issue (.kbdPartial 0x38)))
      (fun t => t.ret = .bit true ∧ t.answers = []) = true := by decide

/-- R79: Keyboard has no demultiplexer; R84: `demux_controller` copies its bits of any word (here with device ID 3). -/
theorem test_step_demux_of_any_word :
    nextIs (step (State.reset.issue (.demux .keyboard 0xFFFF0FFF))) (fun t => t.pad = .released) = true ∧
    nextIs (step (State.reset.issue (.demux .controller 0xFFFF3001)))
      (fun t => t.pad = { ControllerState.released with btnB := true }) = true := by decide

/-- R11, R14, K3: what the host reads after a keyboard's packet of three. -/
theorem test_outputs :
    nextIs (exec (.kbdPacket 0x78 3) (tracking .keyboard (dibits [0, 3, 1, 0, 0, 0, 3, 3, 0, 3, 1, 0])))
      (fun t => t.outputs = ⟨4, .released, 0, 0, [0x1C, 0xF0, 0x1C], 3, false⟩) = true := by decide

/-- R14, D3: the codes of the status port. -/
theorem test_deviceCode :
    [DeviceType.none, .controller, .nes, .mouse, .keyboard].map deviceCode = [0, 1, 2, 3, 4] := by decide

/-! ## Assembly of values -/

/-- R89's example: dibits 0,2,3,1 are the ID 0x78. -/
theorem test_dibits_of_id :
    putDibit (putDibit (putDibit (putDibit (0 : Byte) 0 0) 1 2) 2 3) 3 1 = 0x78 := by decide

/-- M3 with `P = 1`, wrapped and not. -/
theorem test_mouseCoord :
    mouseCoord 1 0x50 true = 117 ∧ mouseCoord 1 0x0A false = 207 ∧ mouseCoord 1 0x01 true = 255 ∧
    mouseCoord 1 0x7F false = 125 ∧ mouseCoord 1 0x7F true = 129 ∧ mouseCoord 1 0x41 false = 1 := by decide

/-- M3 with `P = 2`. -/
theorem test_mouseCoord_two :
    mouseCoord 2 0x50 false = 147 ∧ mouseCoord 2 0x50 true = 107 ∧ mouseCoord 2 0x7F false = 123 ∧
    mouseCoord 2 0x7F true = 131 ∧ mouseCoord 2 0x02 false = 255 ∧ mouseCoord 2 0x02 true = 255 := by decide

/-- T3 with `TH = 4` and, in the fifth row, `TH = 0`. -/
theorem test_speedRequested :
    speedRequested .mouse 0 0 4 = true ∧ speedRequested .mouse 2 3 4 = true ∧ speedRequested .mouse 1 0 4 = false ∧
    speedRequested .mouse 0 4 4 = false ∧ speedRequested .mouse 0 0 0 = false ∧
    speedRequested .controller 0 0 4 = false ∧ speedRequested .none 0 0 4 = false := by decide

/-- M5 with `TH = 4`: the ten readings, one after the other. -/
theorem test_updateSpeed :
    ([0, 0, 2, 2, 1, 1, 3, 0, 0, 3].foldl
      (fun (acc : MouseState × List (BitVec 2 × Nat)) f =>
        let m := updateSpeed 4 f acc.1
        (m, acc.2 ++ [(m.speed, m.fails)])) (⟨0, 0, 0, 0⟩, [])).2 =
    [(0, 1), (0, 2), (2, 2), (2, 3), (1, 3), (1, 3), (0, 3), (0, 4), (0, 4), (0, 4)] := by decide

/-! ## Host operations -/

/-- X1, X4: `init` clears what `caps 1`, `rumble 255 0` and a tracked device left. -/
theorem test_init :
    nextIs (exec .init { tracking .controller [] with
        kbd := ⟨Vector.replicate 16 7, 3, true, true⟩, rumble := ⟨15, 0, 0x720F, 15, true⟩ })
      (fun t => t.phase = .uninitialized ∧ t.devType = .none ∧ t.kbd = .reset ∧ t.rumble = .reset ∧ t.trace = []) = true := by
  decide

/-- X2: five configuration events, nothing driven. -/
theorem test_begin :
    nextIs (exec .begin State.reset) (fun t => t.phase = .running ∧ t.pins.clkOut = .unwritten ∧
      t.trace = [.config .clk .output, .config .latch .output, .config .io .output, .config .d0 .inputPullUp,
        .config .d1 .inputPullUp]) = true := by decide

/-- V7: `start` with nothing attached, 124 events, the pins at rest. -/
theorem test_start_disconnected :
    nextIs (exec .start (tracking .none (allHigh 1))) (fun t =>
      t.devType = .none ∧ t.trace.length = 124 ∧ t.answers = [] ∧ t.kbd.valid = false ∧ t.kbd.len = 0 ∧
      t.pins.clkOut = .driven true ∧ t.pins.latchOut = .driven false ∧ t.pins.ioOut = .driven true) = true := by decide

/-- V8: the buttons held while a controller is detected are not reported. -/
theorem test_start_controller :
    nextIs (exec .start (tracking .none (stimulus false 16 0xFFF6 none6))) (fun t =>
      t.devType = .controller ∧ t.pad = .released ∧ t.mouse.x = 127 ∧ t.mouse.y = 127 ∧ t.trace.length = 124) = true := by
  decide

/-- V8: B and Start. -/
theorem test_poll_controller :
    nextIs (exec .poll (tracking .controller (stimulus false 16 0xFFF6 none6))) (fun t =>
      t.devType = .controller ∧ t.pad = { ControllerState.released with btnB := true, btnStart := true } ∧
      t.trace.length = 124) = true := by decide

/-- X10 (b): a controller unplugged is given up after two read cycles, 248 events. -/
theorem test_poll_unplugged :
    nextIs (exec .poll { tracking .controller (allHigh 2) with pad := { ControllerState.released with btnB := true } })
      (fun t => t.devType = .none ∧ t.trace.length = 248 ∧ t.pad.btnB = true ∧ t.answers = []) = true := by decide

/-- X3. -/
theorem test_start_refused : exec .start State.reset = .refused .notBegun ∧ exec .poll State.reset = .refused .notBegun :=
  ⟨rfl, rfl⟩

/-- K16, X4: before `begin`, no event. -/
theorem test_setCapsLockLed :
    nextIs (exec (.setCapsLockLed true) State.reset) (fun t => t.kbd.capsLock = true ∧ t.trace = []) = true := by decide

/-- B1, X4. -/
theorem test_setRumble :
    nextIs (exec (.setRumble 127 128) State.reset) (fun t => t.rumble = ⟨7, 8, 0x7287, 15, true⟩) = true ∧
    nextIs (exec (.setRumble 15 15) State.reset) (fun t => t.rumble = .reset) = true := by decide

/-- V6: a redundant setting leaves a cursor that is not at 15. -/
theorem test_setRumble_redundant :
    nextIs (exec (.setRumble 240 15) { State.reset with rumble := ⟨15, 0, 0x720F, 9, true⟩ })
      (fun t => t.rumble = ⟨15, 0, 0x720F, 9, true⟩) = true := by decide

/-- R64 (e). -/
theorem test_reserved :
    exec .reserved67 State.reset = .refused .reservedCommand ∧ exec .reserved8F State.reset = .refused .reservedCommand :=
  ⟨rfl, rfl⟩

/-! ## Classification, demultiplexers, mouse speed -/

/-- V2. -/
theorem test_classifyDisconnected :
    nextIs (exec (.classifyDisconnected 0xFFFF0000) { tracking .mouse [] with mouse := ⟨5, 6, 2, 3⟩ })
      (fun t => t.devType = .none ∧ t.mouse = ⟨5, 6, 0, 0⟩ ∧ t.ret = .word 0) = true := by decide

/-- V2, X6. -/
theorem test_classifyRows :
    nextIs (exec (.classifyKeyboard 0xFFFF0000) (tracking .none [])) (fun t => t.devType = .keyboard ∧ t.ret = .word 0xFFFF0000) = true ∧
    nextIs (exec (.classifyController 0xFFFF0009) (tracking .none [])) (fun t => t.devType = .controller) = true ∧
    nextIs (exec (.classifyNes 0xFFFFFF41) (tracking .none [])) (fun t => t.devType = .nes) = true ∧
    nextIs (exec (.classifyUnknown 0xFFFF3000) (tracking .nes [])) (fun t => t.devType = .none ∧ t.ret = .word 0xFFFF3000) = true := by
  decide

/-- P3 step 7: a mouse word at Fast. -/
theorem test_classifyMouse :
    nextIs (exec (.classifyMouse 0x82038700) { tracking .mouse [] with mouse := ⟨127, 127, 2, 3⟩ })
      (fun t => t.devType = .mouse ∧ t.mouse = ⟨127, 127, 1, 3⟩) = true := by decide

/-- V1: Y alone, and all twelve. -/
theorem test_demuxController :
    nextIs (exec (.demuxController 0xFFFF0002) State.reset)
      (fun t => t.pad = { ControllerState.released with btnY := true }) = true ∧
    nextIs (exec (.demuxController 0xFFFF0800) State.reset)
      (fun t => t.pad = { ControllerState.released with btnR := true }) = true := by decide

/-- M2 and X10 (c): X, Y, L and R are left. -/
theorem test_demuxNes :
    nextIs (exec (.demuxNes 0xFFFFFF41)
        { State.reset with pad := ⟨true, true, true, true, true, true, true, true, true, true, true, true⟩ })
      (fun t => t.pad = { ControllerState.released with
        btnA := true, left := true, btnX := true, btnY := true, btnL := true, btnR := true }) = true := by decide

/-- M3: the buttons of the first and the third word. -/
theorem test_demuxMouse :
    nextIs (exec (.demuxMouse 0xA1148200) State.reset) (fun t => t.pad = { ControllerState.released with btnA := true }) = true ∧
    nextIs (exec (.demuxMouse 0x50518900) State.reset) (fun t => t.pad = { ControllerState.released with btnB := true }) = true := by
  decide

/-- M5: the speed changed in each, so the counter stays. -/
theorem test_speedRows :
    nextIs (exec .speedSlow { State.reset with mouse := ⟨0, 0, 2, 2⟩ }) (fun t => t.mouse = ⟨0, 0, 0, 2⟩) = true ∧
    nextIs (exec .speedFast { State.reset with mouse := ⟨0, 0, 1, 3⟩ }) (fun t => t.mouse = ⟨0, 0, 1, 3⟩) = true ∧
    nextIs (exec .speedMedium { State.reset with mouse := ⟨0, 0, 0, 2⟩ }) (fun t => t.mouse = ⟨0, 0, 2, 2⟩) = true ∧
    nextIs (exec .speedMalformed { State.reset with mouse := ⟨0, 0, 1, 3⟩ }) (fun t => t.mouse = ⟨0, 0, 0, 3⟩) = true := by
  decide

/-- P3 steps 5 and 9. -/
theorem test_mouseSpeedUpdate :
    nextIs (exec (.mouseSpeedUpdate 0x50518900) { State.reset with mouse := ⟨0, 0, 0, 2⟩ }) (fun t => t.mouse = ⟨0, 0, 2, 2⟩) = true ∧
    nextIs (exec (.mouseSpeedUpdate 0x00008C00) { State.reset with mouse := ⟨0, 0, 1, 3⟩ }) (fun t => t.mouse = ⟨0, 0, 0, 3⟩) = true := by
  decide

/-- X6. -/
theorem test_classify :
    nextIs (exec (.classify 0x0000FFFF false) State.reset) (fun t => t.ret = .device .nes) = true ∧
    nextIs (exec (.classify 0xFFFFFFFF false) State.reset) (fun t => t.ret = .device .none) = true ∧
    nextIs (exec (.classify 0x00009000 false) State.reset) (fun t => t.ret = .device .none) = true ∧
    nextIs (exec (.classify 0xFFFF3000 true) State.reset) (fun t => t.ret = .device .keyboard) = true := by decide

/-- V3. -/
theorem test_rev8 :
    nextIs (exec (.rev8 0x50) State.reset) (fun t => t.ret = .byte 0x0A) = true ∧
    nextIs (exec (.rev8 0x41) State.reset) (fun t => t.ret = .byte 0x82) = true := by decide

/-! ## Transport -/

/-- R67: an event also for a level already driven. -/
theorem test_pinWrite :
    nextIs (exec (.pinWrite .latch true) { State.reset with pins := { PinState.powerOn with latchOut := .driven true } })
      (fun t => t.trace = [.write .latch true] ∧ t.pins.latchOut = .driven true ∧ t.pins.clkOut = .unwritten) = true := by
  decide

/-- R68: the answer is not inverted. -/
theorem test_pinRead :
    nextIs (exec (.pinRead .d1) { State.reset with answers := [true, false] })
      (fun t => t.ret = .bit true ∧ t.answers = [false] ∧ t.trace = [.read .d1 true]) = true := by decide

/-- R69. -/
theorem test_delay : exec (.delay 12) State.reset = .next { State.reset with trace := [.delay 12] } := rfl

/-- R70. -/
theorem test_pinConfig :
    nextIs (exec (.pinConfig .d0 .input true) State.reset) (fun t => t.pins.d0Dir = .inputPullUp ∧ t.pins.d1Dir = .unconfigured ∧
      t.pins.clkOut = .unwritten) = true := by decide

/-- T1. -/
theorem test_latchAndPrime :
    nextIs (exec .latchAndPrime (tracking .controller []))
      (fun t => t.trace = [.write .latch true, .delay 12, .write .latch false, .delay 12]) = true := by decide

/-- T5. -/
theorem test_shiftBit :
    nextIs (exec (.shiftBit .d0) { State.reset with rumble := ⟨15, 0, 0x720F, 14, true⟩, answers := [false] })
      (fun t => t.ret = .bit false ∧ t.rumble.cursor = 13 ∧
        t.trace = [.write .io true, .write .clk false, .delay 12, .read .d0 false, .write .clk true, .delay 12]) = true := by
  decide

/-- T6: the cursor wraps. -/
theorem test_shiftBit_wrap :
    nextIs (exec (.shiftBit .d0) { State.reset with rumble := ⟨1, 0, 0x7201, 0, true⟩, answers := [true] })
      (fun t => t.rumble.cursor = 15 ∧ t.pins.ioOut = .driven true) = true := by decide

/-- T7: (0, 1) is 2, with rumble active and the cursor unmoved. -/
theorem test_shiftDibit :
    nextIs (exec .shiftDibit { State.reset with rumble := ⟨15, 0, 0x720F, 14, true⟩, answers := [false, true] })
      (fun t => t.ret = .dibit 2 ∧ t.rumble.cursor = 14 ∧
        t.trace = [.write .clk false, .delay 12, .read .d0 false, .read .d1 true, .write .clk true, .delay 12]) = true := by
  decide

/-! ## The read cycle and the keyboard -/

/-- X8: a line stuck low is no device, and the word returned is not 0. -/
theorem test_read_stuck_low :
    nextIs (exec .read (tracking .controller (stimulus false 32 0 [2, 2, 2, 2, 2, 2])))
      (fun t => t.ret = .word 0xFFFFFFFF ∧ t.devType = .none ∧ t.trace.length = 204 ∧ t.answers = []) = true := by decide

/-- B5: a cursor not at 15, frame 0x72A3. -/
theorem test_read_rumble :
    nextIs (exec .read { tracking .controller (stimulus false 16 0xFFFF none6) with rumble := ⟨3, 10, 0x72A3, 5, true⟩ })
      (fun t => t.rumble.cursor = 5 ∧ ioLevels t.trace =
        [true, false, false, false, true, true, false, true, true, true, false, false, true, false, true, false,
          false, true, true]) = true := by decide

/-- R89's example: ten pulses, one scancode. -/
theorem test_kbdSubread :
    nextIs (exec (.kbdSubread false) { State.reset with answers := dibits [0, 2, 3, 1, 1, 0, 0, 3, 0, 0] })
      (fun t => t.ret = .bit true ∧ t.kbd.len = 1 ∧ t.kbd.buf[0] = 0x0C ∧ t.kbd.valid = true ∧
        ioLevels t.trace = [false, true, true] ∧ t.answers = []) = true := by decide

/-- K11: ID-only, the payload suppressed. -/
theorem test_kbdSubread_idOnly :
    nextIs (exec (.kbdSubread true) { State.reset with answers := dibits [0, 2, 3, 1, 2, 0] })
      (fun t => t.ret = .bit true ∧ t.kbd.len = 0 ∧ ioLevels t.trace = [false, true, true, true]) = true := by decide

/-- The rest of R89's example from the ID on. -/
theorem test_kbdIdMatch :
    nextIs (exec .kbdIdMatch { State.reset with answers := dibits [1, 0, 0, 3, 0, 0] })
      (fun t => t.ret = .bit true ∧ t.kbd.len = 1 ∧ t.kbd.buf[0] = 0x0C) = true := by decide

/-- R91's example from the ID on, with a keyboard tracked and with a controller tracked (K4, K5). -/
theorem test_kbdIdHeal :
    nextIs (exec .kbdIdHeal (tracking .keyboard (dibits [1, 0, 2, 1, 1, 0])))
      (fun t => t.ret = .bit true ∧ t.kbd.len = 1 ∧ t.kbd.buf[0] = 0x16) = true ∧
    nextIs (exec .kbdIdHeal (tracking .controller (dibits [1, 0, 2, 1, 1, 0])))
      (fun t => t.ret = .bit false ∧ t.kbd.len = 0 ∧ t.answers.length = 8) = true := by decide

/-- V5, the full instance from the ID on. -/
theorem test_kbdIdEarly :
    nextIs (exec .kbdIdEarly { State.reset with answers := dibits [2, 0, 0, 3, 1, 0, 2, 0, 3, 0] })
      (fun t => t.ret = .bit true ∧ t.kbd.len = 2 ∧ t.kbd.buf[0] = 0x1C ∧ t.kbd.buf[1] = 0x32) = true := by decide

/-- K3 from the header on. -/
theorem test_kbdPacket :
    nextIs (exec (.kbdPacket 0x78 3) (tracking .keyboard (dibits [0, 3, 1, 0, 0, 0, 3, 3, 0, 3, 1, 0])))
      (fun t => t.ret = .bit true ∧ t.kbd.len = 3 ∧ t.kbd.buf[0] = 0x1C ∧ t.kbd.buf[1] = 0xF0 ∧ t.kbd.buf[2] = 0x1C) = true := by
  decide

/-- R57, B1. -/
theorem test_rumbleFrame :
    nextIs (exec (.rumbleFrame 8 7) State.reset) (fun t => t.rumble = ⟨7, 8, 0x7287, 15, true⟩) = true := by decide

/-- V5: the early exit at position 3 and at position 2. -/
theorem test_subread_early :
    (subread 3 false { State.reset with answers := dibits [2, 3, 1, 0, 0] }).1 = true ∧
    (subread 3 false { State.reset with answers := dibits [0, 2, 3, 1, 0, 0] }).1 = true ∧
    (subread 2 false { State.reset with answers := dibits [2, 3, 1, 0, 0, 0] }).1 = false ∧
    (subread 2 false { State.reset with answers := dibits [0, 2, 3, 1, 0, 0] }).1 = true := by decide

/-- K13, K14: a keyboard hides the controller, and the booleans stay. -/
theorem test_poll_keyboard :
    nextIs (exec .poll { tracking .controller (stimulus false 16 0xFFFE [0, 2, 3, 1, 1, 0, 1, 2, 2, 0]) with
        pad := { ControllerState.released with btnStart := true } })
      (fun t => t.devType = .keyboard ∧ t.kbd.buf[0] = 0x29 ∧ t.pad = { ControllerState.released with btnStart := true } ∧
        t.trace.length = 148) = true := by decide

/-! ## Witnesses: what meets the hypotheses of each statement

A statement of the form "if `exec i s` answers a next state, then" has a witness here that `exec` answers one. -/

/-- A safe running state with rumble active, a keyboard tracked and one scancode, the pins at rest. -/
def safeExample : State :=
  { tracking .keyboard [] with
    inbox := [.command 0x40001]
    kbd := ⟨(Vector.replicate 16 0).setIfInBounds 0 0x1C, 1, true, false⟩
    rumble := ⟨15, 0, 0x720F, 15, true⟩ }

/-- StepKeepsSafeState, RumbleFrameRowIsStoredAndIsTheFrameSent. -/
theorem witness_safe : SafeState safeExample where
  hostIssued := by decide
  rumbleFrame := by decide
  rumbleCursor := rfl
  mouseSpeed := by decide
  mouseFails := Nat.zero_le _
  scancodesBeyond := by decide
  pinsConfigured := fun _ => ⟨rfl, rfl, rfl, rfl, rfl⟩

/-- StepKeepsSafeState: a safe state that a step leaves for a next one. -/
theorem witness_StepKeepsSafeState : ∃ s t, SafeState s ∧ step s = .next t :=
  ⟨safeExample, _, witness_safe, rfl⟩

/-- DecodeOfEncodeIsIdentity. -/
theorem witness_DecodeOfEncodeIsIdentity :
    WellFormed (.demuxMouse 0xFFFF8FFF) = true ∧ isMicro (.demuxMouse 0xFFFF8FFF) = false := by decide

/-- DecodedInstructionsAreTableRows. -/
theorem witness_DecodedInstructionsAreTableRows : ∃ f i, decode f = .ok i := ⟨.command 0xFFFFF, _, rfl⟩

/-- CommandWordFieldsSelectTheOperation: the largest word under each of the eight clauses. -/
theorem witness_CommandWordFieldsSelectTheOperation :
    (0x0FFFF : Command) &&& 0xF0000 = 0x00000 ∧ (0x1FFFF : Command) &&& 0xF0000 = 0x10000 ∧
    (0x2FFFF : Command) &&& 0xF0000 = 0x20000 ∧ (0x3FFFF : Command) &&& 0xF0000 = 0x30000 ∧
    (0x4FFFF : Command) &&& 0xF0000 = 0x40000 ∧ (0x5FFFF : Command) &&& 0xF0000 = 0x50000 ∧
    (0x7FFFF : Command) &&& 0xE0000 = 0x60000 ∧ (0xFFFFF : Command) &&& 0x80000 = 0x80000 := by decide

/-- DataWordPriorityDecode: a word under each branch, and under each of its exclusion clauses. -/
theorem witness_DataWordPriorityDecode :
    (0xFFFF0000 : DataWord) &&& 0x0000FFFF = 0 ∧ matchesController 0xFFFF0FFF = true ∧ matchesNes 0xFFFFFF00 = true ∧
    (0xFFFFFF00 : DataWord) ≠ 0xFFFFFFFF ∧ matchesMouse 0xFFFF8FFF = true := by decide

/-- StepRunsTheDecodedInstruction: a frame that decodes, one that does not, and an empty inbox. -/
theorem witness_StepRunsTheDecodedInstruction :
    (State.reset.issue (.command 0x10000)).inbox = .command 0x10000 :: [] ∧ decode (.command 0x10000) = .ok .begin ∧
    (State.reset.issue (.kbdId 0x7A)).inbox = .kbdId 0x7A :: [] ∧ decode (.kbdId 0x7A) = .error (.notAKeyboardId 0x7A) ∧
    State.reset.inbox = [] := by decide

/-- NothingFaultsAndAcceptedOperationsComplete: each of the three outcomes. -/
theorem witness_NothingFaultsAndAcceptedOperationsComplete :
    (∃ t, exec .poll (tracking .nes []) = .next t) ∧ exec .poll State.reset = .refused .notBegun ∧
    exec .reserved67 State.reset = .refused .reservedCommand := ⟨⟨_, rfl⟩, rfl, rfl⟩

/-- RefusalsBeforeBeginAndOfReservedCommands. -/
theorem witness_RefusalsBeforeBeginAndOfReservedCommands : State.reset.phase = .uninitialized := rfl

/-- OutputsAreTheirRegisters: the last byte within the longest sequence. -/
theorem witness_OutputsAreTheirRegisters :
    (14 : Fin 16).val < ({ safeExample with kbd := ⟨Vector.replicate 16 0, 15, true, false⟩ } : State).kbd.len.toNat := by
  decide

/-- UnrecognisedPatternsHaveSilentOutcomes: the nearest values that are no row. -/
theorem witness_UnrecognisedPatternsHaveSilentOutcomes :
    (0x7A : Byte) ≠ 0x78 ∧ (0x7A : Byte) ≠ 0x79 ∧ (0x1F : BitVec 6) ≠ 0x1E ∧
    (0x7300 : BitVec 16).extractLsb' 8 8 ≠ 0x72 := by decide

/-- StartIsOneReadCycleThenDefaults: a running state whose cycle classifies a device, and one whose cycle does not. -/
theorem witness_StartIsOneReadCycleThenDefaults :
    (tracking .none []).phase = .running ∧
    nextIs (exec .read (tracking .none (stimulus false 16 0xFFFF none6))) (fun t => t.devType ≠ .none) = true ∧
    nextIs (exec .read (tracking .none (allHigh 1))) (fun t => t.devType = .none) = true := by decide

/-- PollWithoutADeviceIsStart. -/
theorem witness_PollWithoutADeviceIsStart : (tracking .none []).devType = .none := rfl

/-- PollReadsThenDemultiplexes: a tracked device and a read that returns a word other than 0, for each of the five types. -/
theorem witness_PollReadsThenDemultiplexes :
    (tracking .controller []).phase = .running ∧ (tracking .controller []).devType ≠ .none ∧
    nextIs (exec .read (tracking .controller (stimulus false 16 0xFFF6 none6)))
      (fun t => t.devType = .controller ∧ t.ret = .word 0xFFFF0009) = true ∧
    nextIs (exec .read (tracking .controller (stimulus false 32 0x000000BE none6)))
      (fun t => t.devType = .nes ∧ t.ret = .word 0xFFFFFF41) = true ∧
    nextIs (exec .read (tracking .controller (stimulus false 32 0xFFFF7BFF none6)))
      (fun t => t.devType = .mouse ∧ t.ret = .word 0x00008400) = true ∧
    nextIs (exec .read (tracking .controller (stimulus true 16 0xFFFF [0, 2, 3, 1, 0, 0])))
      (fun t => t.devType = .keyboard ∧ t.ret = .word 0xFFFF0000) = true ∧
    nextIs (exec .read (tracking .controller (stimulus false 16 0xCFFF none6)))
      (fun t => t.devType = .none ∧ t.ret = .word 0xFFFF3000) = true := by decide

/-- PollRedetectsInTheSameCall: a tracked device and a read that returns 0. -/
theorem witness_PollRedetectsInTheSameCall :
    ∃ s t : State, s.phase = .running ∧ s.devType ≠ .none ∧ exec .read { s with trace := [], ret := .none } = .next t ∧
      t.ret = .word 0 :=
  ⟨tracking .controller (allHigh 2), _, rfl, by decide, rfl, by decide⟩

/-- SpeedFieldValuesAreStored: a word for each value of the field. -/
theorem witness_SpeedFieldValuesAreStored :
    (0x00008300 : DataWord).getLsbD 11 = false ∧ (0x00008300 : DataWord).getLsbD 10 = false ∧
    (0x00008400 : DataWord).getLsbD 11 = false ∧ (0x00008400 : DataWord).getLsbD 10 = true ∧
    (0x00008800 : DataWord).getLsbD 11 = true ∧ (0x00008800 : DataWord).getLsbD 10 = false ∧
    (0x00008C00 : DataWord).getLsbD 11 = true ∧ (0x00008C00 : DataWord).getLsbD 10 = true := by decide

/-- SpeedRowsAreTheSpeedUpdate. -/
theorem witness_SpeedRowsAreTheSpeedUpdate :
    decode (.mouseSpeed ((0x00008C00 : DataWord).extractLsb' 10 2)) = .ok .speedMalformed := by decide

/-- DemuxControllerCopiesTwelveBits, DemuxNesCopiesEightBits, DemuxMouseRecentresTheCoordinates: the patterns. -/
theorem witness_Demux :
    ~~~(0xFFFFF000 : DataWord) &&& 0x0000F000 = 0 ∧ ~~~(0x000000FF : DataWord) &&& 0x0000FF00 = 0x0000FF00 ∧
    (0xFFFF8FFF : DataWord) &&& 0x0000F000 = 0x00008000 := by decide

/-- MouseCoordinateInRangeIsExact: a zero magnitude is in range whatever the precision, with either sign. -/
theorem witness_MouseCoordinateInRangeIsExact :
    let v (w : DataWord) (i : Nat) := (magnitude (w.extractLsb' i 7)).toNat * Config.mousePrecision
    (0x00008000 : DataWord).getLsbD 24 = false ∧ 127 + v 0x00008000 25 < 256 ∧
    (0x01008000 : DataWord).getLsbD 24 = true ∧ v 0x01008000 25 ≤ 127 ∧
    (0x00008000 : DataWord).getLsbD 16 = false ∧ 127 + v 0x00008000 17 < 256 ∧
    (0x00018000 : DataWord).getLsbD 16 = true ∧ v 0x00018000 17 ≤ 127 := by
  have h (w : DataWord) (i : Nat) (hw : magnitude (w.extractLsb' i 7) = 0) :
      (magnitude (w.extractLsb' i 7)).toNat * Config.mousePrecision = 0 := by simp [hw]
  refine ⟨by decide, ?_, by decide, ?_, by decide, ?_, by decide, ?_⟩ <;> beta_reduce <;> rw [h _ _ (by decide)] <;> decide

/-- Rev8ReversesTheByte. -/
theorem witness_Rev8ReversesTheByte : (0x7F : Byte).toNat ≤ 0x7F := by decide

/-- PinReadReturnsTheAnswer: an answer listed, and none. -/
theorem witness_PinReadReturnsTheAnswer :
    (tracking .none [true]).answers = true :: [] ∧ (tracking .none []).answers = [] := ⟨rfl, rfl⟩

/-- PinConfigSetsTheDirection: another pin. -/
theorem witness_PinConfigSetsTheDirection : Pin.d1 ≠ Pin.d0 := by decide

/-- ConsecutiveShiftBitsSendTheFrame, ReadCycleSendsWholeRumbleFrames. -/
theorem witness_rumble_active : safeExample.rumble.active = true ∧ safeExample.rumble.cursor = 15 := by decide

/-- EarlyExitAtPositionThree: a stream that takes the exit and one that does not. -/
theorem witness_EarlyExitAtPositionThree :
    (tracking .none (dibits [2, 3, 1])).valueAt 0 6 = 0x1E ∧ (tracking .none (dibits [0, 2, 3])).valueAt 0 6 ≠ 0x1E := by
  decide

/-- ComputedWordIsNeverZero, DisconnectionNeedsAllThreeConditions: a short cycle that is a disconnection, and a long one. -/
theorem witness_read_cases :
    (tracking .none (allHigh 1)).answerAt 16 = true ∧ (tracking .none (allHigh 1)).readsDisconnected = true ∧
    nextIs (exec .read (tracking .none (allHigh 1))) (fun t => t.ret = .word 0 ∧ t.devType ≠ .mouse) = true ∧
    (tracking .none (stimulus false 32 0x0000007F none6)).answerAt 16 = false ∧
    nextIs (exec .read (tracking .none (stimulus false 32 0x0000007F none6)))
      (fun t => t.ret ≠ .word 0 ∧ t.devType ≠ .mouse) = true := by decide

/-- RumbleRestsAtFifteenInEveryReachableState: INIT, BEGIN, SET_RUMBLE and POLL from reset. -/
theorem witness_RumbleRestsAtFifteenInEveryReachableState :
    ∃ t, Host.Core.run Sys2Proof.core 4
      ({ State.reset with
        inbox := [0x00000, 0x10000, 0x5FF00, 0x30000].map Frame.command, answers := allHigh 1 } : State) = .next t :=
  ⟨_, rfl⟩

/-- OnlyInitDeactivatesRumble, TracesAreBounded, HostOperationsWriteOnlyTheirState, RumbleDoesNotInfluenceDecoding: every host
operation that is accepted, and `read`, answer a next state, here with rumble active. -/
theorem witness_host_operations :
    safeExample.rumble.active = true ∧ (∃ t, exec .init safeExample = .next t) ∧ (∃ t, exec .begin safeExample = .next t) ∧
    (∃ t, exec .start safeExample = .next t) ∧ (∃ t, exec .poll safeExample = .next t) ∧
    (∃ t, exec (.setCapsLockLed true) safeExample = .next t) ∧ (∃ t, exec (.setRumble 0 255) safeExample = .next t) ∧
    (∃ t, exec .read safeExample = .next t) :=
  ⟨rfl, ⟨_, rfl⟩, ⟨_, rfl⟩, ⟨_, execStart_running _ rfl⟩, ⟨_, execPoll_running _ rfl⟩, ⟨_, rfl⟩, ⟨_, rfl⟩, ⟨_, rfl⟩⟩

/-- ReadCyclesLeaveThePinsAtRest, and the first two hypotheses of the statements about a POLL of a tracked device. -/
theorem witness_running : safeExample.phase = .running ∧ safeExample.devType ≠ .none := by decide

/-- ControllerPollReportsTheButtons: no button with a hint of 0, and one button with a hint of 1. -/
theorem witness_ControllerPollReportsTheButtons :
    (tracking .nes (stimulus false 16 0xFFFF none6)).answers =
      false :: wireBits 16 (~~~((0 : BitVec 12).setWidth 16)) ++ noKeyboard ++ [] ∧
    (tracking .nes (stimulus true 16 0xF7FF none6)).answers =
      true :: wireBits 16 (~~~((0x800 : BitVec 12).setWidth 16)) ++ noKeyboard ++ [] ∧ (0x800 : BitVec 12) ≠ 0 := by decide

/-- KeyboardPollDeliversTheScancodes: no scancode, and fifteen. -/
theorem witness_KeyboardPollDeliversTheScancodes :
    (tracking .nes (stimulus true 16 0xFFFF [0, 2, 3, 1, 0, 0])).answers =
      true :: wireBits 16 (0xFFFF : BitVec 16) ++ keyboardPacket 0x78 [] ++ [] ∧
    (tracking .nes (stimulus true 16 0xFFFF ([0, 2, 3, 1, 3, 3] ++ (List.replicate 15 [1, 2, 2, 0]).flatten))).answers =
      true :: wireBits 16 (0xFFFF : BitVec 16) ++ keyboardPacket 0x78 (List.replicate 15 0x29) ++ [] ∧
    (0xFFFF : BitVec 16).getLsbD 15 = true ∧ (List.replicate 15 (0x29 : Byte)).length ≤ 15 := by decide

/-- MousePollReportsTheMovement: the first word of M3. -/
theorem witness_MousePollReportsTheMovement :
    (0xA1148200 : DataWord) &&& 0x0000F000 = 0x00008000 ∧
    (tracking .mouse (stimulus false 32 0x5EEB7DFF none6)).answers =
      false :: wireBits 32 (~~~(0xA1148200 : DataWord)) ++ noKeyboard ++ [] := by decide

/-- DisconnectedBusIsGivenUp: one read cycle, and two. -/
theorem witness_DisconnectedBusIsGivenUp :
    (tracking .none (allHigh 1)).answers = List.replicate 29 true ++ [] ∧
    (tracking .controller (allHigh 2)).answers = List.replicate 58 true ++ [] := by decide

end Sys2Proof.Tests
end

section
/-! Consecutive `shift_bit`s as one run (R33, R72): `n` of them leave the state after `n` samples, so what they write on the
I/O line is what `State.ioLevels_sampleTrace` says of those samples. -/

namespace Sys2Proof.Machine

/-- The bus does not look at the value the last operation returned. -/
theorem State.returning_sampled (s : State) (v : Ret) (n : Nat) :
    (s.returning v).sampled n = (s.sampled n).returning v := rfl

theorem exec_shiftBit_d0 (s : State) :
    exec (.shiftBit .d0) s = .next ((s.sampled 1).returning (.bit (s.answerAt 0))) := by
  rw [exec, execShiftBit, shiftBit_d0]

theorem shiftBits_succ (n : Nat) (s : State) :
    shiftBits (n + 1) s = shiftBits n ((s.sampled 1).returning (.bit (s.answerAt 0))) := by
  rw [shiftBits, exec_shiftBit_d0]

/-- `n` consecutive `shift_bit`s of data0 complete, and but for the returned value leave what `n` samples leave. -/
theorem shiftBits_eq_sampled (n : Nat) (s : State) :
    ∃ v, shiftBits n s = .next ((s.sampled n).returning v) := by
  induction n generalizing s with
  | zero => exact ⟨s.ret, by rw [State.sampled_zero]; rfl⟩
  | succ n ih =>
    obtain ⟨v, hv⟩ := ih ((s.sampled 1).returning (.bit (s.answerAt 0)))
    rw [State.returning_sampled, State.sampled_sampled, Nat.add_comm] at hv
    exact ⟨v, (shiftBits_succ n s).trans hv⟩

/-- Settles O38: the run of `n` samples steps the cursor down its ring from 15 (R33). -/
theorem consecutiveShiftBitsSendTheFrame : Obligations.ConsecutiveShiftBitsSendTheFrame := by
  intro n s hactive hcursor
  obtain ⟨v, hv⟩ := shiftBits_eq_sampled n s
  refine ⟨_, hv, ?_⟩
  have htrace : ((s.sampled n).returning v).trace = s.trace ++ s.sampleTrace 0 n := rfl
  rw [htrace, List.drop_left, State.ioLevels_sampleTrace, if_pos hactive, hcursor]
  simp only [cursor_from_fifteen]

end Sys2Proof.Machine
end

section
/-! The mouse speed field (R60, R87): bits 11 and 10 of the word fix the field, and the field fixes both the row of the table
and the speed stored. -/

namespace Sys2Proof.Machine

/-- `w[11:10]` is the value whose two bits are those of the word (R54). -/
theorem speedField_eq_of_bits {w : DataWord} {v : BitVec 2} (h11 : w.getLsbD 11 = v.getLsbD 1)
    (h10 : w.getLsbD 10 = v.getLsbD 0) : w.extractLsb' 10 2 = v := by
  apply BitVec.eq_of_getLsbD_eq
  intro i hi
  rw [BitVec.getLsbD_extractLsb', decide_eq_true hi, Bool.true_and]
  obtain rfl | rfl : i = 0 ∨ i = 1 := by omega
  · exact h10
  · exact h11

/-- The row of a word's speed field, and the speed `mouse_speed_update` stores for it (R60, R87). -/
theorem speedRow_and_storedSpeed {w : DataWord} {v : BitVec 2} (h : w.extractLsb' 10 2 = v) (s : State) :
    decode (.mouseSpeed (w.extractLsb' 10 2)) = .ok (decodeSpeed v) ∧
      (mouseSpeedUpdate w s).mouse.speed = clampSpeed v := by
  rw [mouseSpeedUpdate, speedUpdate_mouse, speedField, h]
  exact ⟨rfl, rfl⟩

/-- Settles O24: one clause for each value of the field. -/
theorem speedFieldValuesAreStored : Obligations.SpeedFieldValuesAreStored := by
  intro w s
  refine ⟨mouseSpeedUpdate w s, rfl, ?slow, ?fast, ?medium, ?malformed⟩ <;> intro h11 h10
  case slow => exact speedRow_and_storedSpeed (speedField_eq_of_bits (v := speedCodeSlow) h11 h10) s
  case fast => exact speedRow_and_storedSpeed (speedField_eq_of_bits (v := speedCodeFast) h11 h10) s
  case medium => exact speedRow_and_storedSpeed (speedField_eq_of_bits (v := speedCodeMedium) h11 h10) s
  case malformed => exact speedRow_and_storedSpeed (speedField_eq_of_bits (v := speedCodeMalformed) h11 h10) s

end Sys2Proof.Machine
end

section
/-! The I/O line during the keyboard sub-read (R56): the sub-read appends the events of the frame format, so where the line
rises and falls among the clock pulses is what `State.pulsesAndIo_subreadTrace` says of those events. -/

namespace Sys2Proof.Machine

theorem exec_kbdSubread (o : Bit) (s : State) :
    exec (.kbdSubread o) s = .next ((s.subreadDone o).returning (.bit (idAccepted s.devType (s.valueAt 0 8)))) := by
  rw [exec, execKbdSubread, kbdSubread_eq]

theorem State.scancodesAt_le (s : State) (o : Bit) (off : Nat) : s.scancodesAt o off ≤ 15 :=
  payloadCount_le _ _ _ _

/-- Settles O41: the events appended are those of the frame format, with as many scancodes as the header announces. -/
theorem subReadControlsTheIoLine : Obligations.SubReadControlsTheIoLine := by
  intro o s
  refine ⟨_, s.subreadTrace o 0, s.scancodesAt o 0, exec_kbdSubread o s, rfl, s.scancodesAt_le o 0, ?_⟩
  rw [State.pulsesAndIo_subreadTrace]
  cases s.kbd.capsLock <;> rfl

end Sys2Proof.Machine
end

section
/-! The disconnection check (R81). The word as computed is never 0 (R35), so `read` returns 0 exactly when the check holds; its
third condition, `w[15:0] = 0`, is that the first 16 samples are high; and the speed update of a mouse word never lowers the
counter (R87). -/

namespace Sys2Proof.Machine

/-- `read` as an instruction: its end state is the one read off the answers (R80). -/
theorem exec_read (s : State) : exec .read s = .next s.readDone := by
  rw [exec, execRead, readCycle_eq]
  rfl

/-- Bit 16 of a short frame was never sampled, and bit 15 of a long one was low: either is 1 in the complement (R35). -/
theorem State.not_rawWord_ne_zero (s : State) : ~~~s.rawWord ≠ 0 := by
  intro h
  cases h16 : s.answerAt 16
  case true =>
    have hbit := s.not_rawWord_getLsbD 16 (by decide)
    rw [getLsbD_of_eq_zero h, if_pos ⟨h16, Nat.le_refl 16⟩] at hbit
    exact Bool.false_ne_true hbit
  case false =>
    have hbit := s.not_rawWord_getLsbD 15 (by decide)
    rw [getLsbD_of_eq_zero h, if_neg (by omega), h16] at hbit
    exact Bool.false_ne_true hbit

theorem State.readWord_eq_zero_iff (s : State) : s.readWord = 0 ↔ s.readsDisconnected = true := by
  unfold State.readWord
  split
  case isTrue h => exact iff_of_true rfl h
  case isFalse h => exact iff_of_false s.not_rawWord_ne_zero h

theorem lowHalf_eq_zero_iff (w : DataWord) : lowHalf w = 0 ↔ ∀ i < 16, w.getLsbD i = false := by
  rw [BitVec.eq_of_getLsbD_eq_iff]
  refine forall₂_congr fun i hi => ?_
  rw [lowHalf, BitVec.getLsbD_extractLsb', decide_eq_true hi, Bool.true_and, Nat.zero_add,
    getLsbD_of_eq_zero (rfl : (0 : BitVec 16) = 0)]

/-- `w[15:0] = 0` says of the samples that the first 16 were high (R81). -/
theorem State.lowHalf_not_rawWord_eq_zero_iff (s : State) :
    lowHalf (~~~s.rawWord) = 0 ↔ ∀ i < 16, s.answerAt (1 + i) = true := by
  rw [lowHalf_eq_zero_iff]
  refine forall₂_congr fun i hi => ?_
  rw [s.not_rawWord_getLsbD i (by omega), if_neg (by omega), Bool.not_eq_false']

/-- The three conditions of R81, with `k` read where the sub-read leaves it. -/
theorem State.readsDisconnected_iff (s : State) :
    s.readsDisconnected = true ↔
      s.readDone.kbd.valid = false ∧ s.answerAt 0 = true ∧ ∀ i < 16, s.answerAt (1 + i) = true := by
  rw [← readsDisconnected_eq, isDisconnected, matchesDisconnected, Bool.and_eq_true, Bool.and_eq_true, Bool.not_eq_true',
    decide_eq_true_eq, s.lowHalf_not_rawWord_eq_zero_iff, and_assoc]
  rfl

theorem State.readType_of_disconnected {s : State} (h : s.readsDisconnected = true) : s.readType = .none := if_pos h

theorem State.readMouse_of_disconnected {s : State} (h : s.readsDisconnected = true) :
    s.readMouse = { s.mouse with speed := 0, fails := 0 } := if_pos h

/-- A cycle that is no disconnection touches MouseState only by the speed update of a mouse word. -/
theorem State.readMouse_of_connected {s : State} (h : ¬ s.readsDisconnected = true) :
    s.readMouse = if s.readType = .mouse then s.mouse.afterSpeed ((~~~s.rawWord).extractLsb' 10 2) else s.mouse :=
  if_neg h

/-- The speed update raises the counter by one or leaves it (R87). -/
theorem MouseState.fails_le_afterSpeed (m : MouseState) (f : BitVec 2) : m.fails ≤ (m.afterSpeed f).fails := by
  unfold MouseState.afterSpeed
  split
  · exact Nat.le_succ m.fails
  · exact Nat.le_refl m.fails

theorem State.fails_le_readMouse {s : State} (h : ¬ s.readsDisconnected = true) : s.mouse.fails ≤ s.readMouse.fails := by
  rw [State.readMouse_of_connected h]
  split
  · exact s.mouse.fails_le_afterSpeed _
  · exact Nat.le_refl _

/-- Settles O46: `read` returns 0 exactly on a disconnection, and both what that writes and what any other cycle keeps are read
off its end state. -/
theorem disconnectionNeedsAllThreeConditions : Obligations.DisconnectionNeedsAllThreeConditions := by
  intro s
  have hret : s.readDone.ret = .word 0 ↔ s.readsDisconnected = true :=
    Iff.trans (Iff.of_eq (Ret.word.injEq s.readWord 0)) s.readWord_eq_zero_iff
  refine ⟨s.readDone, exec_read s, hret.trans s.readsDisconnected_iff, fun h0 => ?disconnected, fun h0 => ?connected⟩
  case disconnected =>
    have hd := hret.mp h0
    exact ⟨State.readType_of_disconnected hd, State.readMouse_of_disconnected hd⟩
  case connected =>
    have hd := mt hret.mpr h0
    exact ⟨State.fails_le_readMouse hd, fun ht => (State.readMouse_of_connected hd).trans (if_neg ht)⟩

end Sys2Proof.Machine
end

section
/-! `demux_controller` (R84): a register holds the bit of `w` at its position, and bit `i` of `w = ~r` is the complement of the
wire level `r[i]`. -/

namespace Sys2Proof.Machine

/-- The Controller demultiplexer runs on a word of the Controller row (R59, R79). -/
theorem decode_demux_controller {w : DataWord} (h : matchesController w = true) :
    decode (.demux .controller w) = .ok (.demuxController w) := by
  rw [decode, decodeDemux, if_pos h]

theorem exec_demuxController (w : DataWord) (s : State) :
    exec (.demuxController w) s = .next (demuxController w s) := by
  rw [exec, execDemuxController]

/-- A position of the data word is 1 exactly where the wire level was low (R84). -/
theorem not_wire_getLsbD (r : DataWord) {i : Nat} (h : i < 32) : (~~~r).getLsbD i = !r.getLsbD i := by
  rw [BitVec.getLsbD_not, decide_eq_true h, Bool.true_and]

/-- Settles O27: the row's mask is the device ID test, and each of the twelve bits is complemented from the wire. -/
theorem demuxControllerCopiesTwelveBits : Obligations.DemuxControllerCopiesTwelveBits := by
  intro r s
  refine ⟨fun h => decode_demux_controller ((matchesController_iff _).mpr h), ?_⟩
  rw [exec_demuxController, demuxController]
  simp only [not_wire_getLsbD r, Nat.reduceLT]

end Sys2Proof.Machine
end

section
/-! `rev8` (R83): the parity of the reversal is the top bit of the byte, which a zero-extended 7-bit field leaves 0. -/

namespace Sys2Proof.Machine

theorem exec_rev8 (x : Byte) (s : State) : exec (.rev8 x) s = .next { s with ret := .byte (rev8 x) } := by
  rw [exec, execRev8, State.returning]

/-- Bit 0 of the reversal is bit 7 of the byte (R83 (c)). -/
theorem rev8_even {x : Byte} (h : x.toNat ≤ 0x7F) : (rev8 x).toNat % 2 = 0 := by
  have htop : x.getLsbD 7 = false := Nat.testBit_lt_two_pow (Nat.lt_succ_of_le h)
  have hlow : (rev8 x).getLsbD 0 = false := (rev8_getLsbD x 0 (by decide)).trans htop
  exact Nat.mod_two_eq_zero_iff_testBit_zero.mpr hlow

/-- Settles O31: the byte returned is `rev8 x`, whose bits and inverse the laws of the operand functions give. -/
theorem rev8ReversesTheByte : Obligations.Rev8ReversesTheByte := by
  refine ⟨fun x s => ⟨rev8 x, exec_rev8 x s, rev8_getLsbD x, ?inverse, rev8_even⟩, fun s => ⟨?_, ?_⟩⟩
  case inverse => rw [exec_rev8, rev8_rev8]
  · rw [exec_rev8, (by decide : rev8 0b10000000 = 0b00000001)]
  · rw [exec_rev8, (by decide : rev8 0b00001111 = 0b11110000)]

end Sys2Proof.Machine
end

section
/-! Nothing faults (R104): the reserved commands are refused in every state (R64 (e)), START and POLL exactly while the phase is
Uninitialized (R77), and every other row answers a next state. -/

namespace Sys2Proof.Machine

/-- What the phase check makes of a body that returns no value of its own (R77, R104). -/
theorem whenRunning_cases {body : State → State} (hbody : ∀ s, (body s).ret = s.ret) (s : State) :
    (s.phase = .running ∧ ∃ t, whenRunning body s = .next t ∧ t.ret = .none) ∨
      (s.phase = .uninitialized ∧ whenRunning body s = .refused .notBegun) := by
  cases h : s.phase with
  | running => exact .inl ⟨rfl, body s.beginOp, if_pos h, hbody s.beginOp⟩
  | uninitialized => exact .inr ⟨rfl, if_neg (by rw [h]; nofun)⟩

theorem exec_startOrPoll_cases {i : Instr} (hi : i = .start ∨ i = .poll) (s : State) :
    (s.phase = .running ∧ ∃ t, exec i s = .next t ∧ t.ret = .none) ∨
      (s.phase = .uninitialized ∧ exec i s = .refused .notBegun) := by
  obtain rfl | rfl := hi
  · exact whenRunning_cases redetect_ret s
  · exact whenRunning_cases pollCycle_ret s

theorem exec_reserved {i : Instr} (hi : i = .reserved67 ∨ i = .reserved8F) (s : State) :
    exec i s = .refused .reservedCommand := by
  obtain rfl | rfl := hi <;> rfl

theorem loadRumble_ret (right left : BitVec 4) (s : State) : (loadRumble right left s).ret = s.ret := by
  rw [loadRumble_eq]

/-- A row that is neither reserved nor under the phase check completes in every state. -/
theorem exec_completes {i : Instr} (hreserved : ¬(i = .reserved67 ∨ i = .reserved8F))
    (hchecked : ¬(i = .start ∨ i = .poll)) (s : State) :
    ∃ t, exec i s = .next t ∧ (isHostRow i = true → t.ret = .none) := by
  cases i
  case reserved67 => exact absurd (.inl rfl) hreserved
  case reserved8F => exact absurd (.inr rfl) hreserved
  case start => exact absurd (.inl rfl) hchecked
  case poll => exact absurd (.inr rfl) hchecked
  case setRumble left right => exact ⟨_, rfl, fun _ => loadRumble_ret _ _ s.beginOp⟩
  case init | begin | setCapsLockLed => exact ⟨_, rfl, fun _ => rfl⟩
  all_goals exact ⟨_, rfl, nofun⟩

/-- Settles O7: the three outcomes are those of the reserved commands, of the phase check, and of every other row. -/
theorem nothingFaultsAndAcceptedOperationsComplete : Obligations.NothingFaultsAndAcceptedOperationsComplete := by
  intro i s
  by_cases hreserved : i = .reserved67 ∨ i = .reserved8F
  case pos => exact .inr (.inr ⟨hreserved, exec_reserved hreserved s⟩)
  have ⟨h67, h8F⟩ := not_or.mp hreserved
  by_cases hchecked : i = .start ∨ i = .poll
  case pos =>
    obtain ⟨hrunning, t, hnext, hret⟩ | hrefused := exec_startOrPoll_cases hchecked s
    · exact .inl ⟨⟨t, hnext, fun _ => hret⟩, h67, h8F, fun _ => hrunning⟩
    · exact .inr (.inl ⟨hchecked, hrefused⟩)
  case neg => exact .inl ⟨exec_completes hreserved hchecked s, h67, h8F, fun h => absurd h hchecked⟩

end Sys2Proof.Machine
end

section
/-! The decoder and the encoder (30_encoding.md R59 to R62): the fields of a command word, the priority order of a data word,
and the two in both directions. -/

namespace Sys2Proof

open Sys2Proof.Machine

/-! ## The command word (R62) -/

theorem mkCommand_op (op : BitVec 4) (a b : Byte) : (mkCommand op a b).extractLsb' 16 4 = op := by
  rw [mkCommand, BitVec.extractLsb'_append_eq_of_le (by decide)]
  exact BitVec.extractLsb'_append_eq_left

theorem mkCommand_a (op : BitVec 4) (a b : Byte) : (mkCommand op a b).extractLsb' 8 8 = a := by
  rw [mkCommand, BitVec.extractLsb'_append_eq_of_le (by decide)]
  exact BitVec.extractLsb'_append_eq_right

theorem mkCommand_b (op : BitVec 4) (a b : Byte) : (mkCommand op a b).extractLsb' 0 8 = b :=
  BitVec.extractLsb'_append_eq_right

/-- A field of a word of any width has the value its mask shows in place. -/
theorem field_eq_of_mask {width : Nat} {x : BitVec width} (lo n : Nat) (v : BitVec n) (h : lo + n ≤ width)
    (e : x &&& ((BitVec.allOnes n).setWidth width <<< lo) = v.setWidth width <<< lo) : x.extractLsb' lo n = v := by
  apply BitVec.eq_of_getLsbD_eq
  intro i hi
  have hbit := congrArg (fun y : BitVec width => y.getLsbD (lo + i)) e
  have h1 : lo + i < width := by omega
  have h2 : i < width := by omega
  simpa [hi, h1, h2] using hbit

theorem op_eq_of_mask {c : Command} (op : BitVec 4) (h : c &&& 0xF0000 = op.setWidth 20 <<< 16) :
    c.extractLsb' 16 4 = op :=
  field_eq_of_mask 16 4 op (by decide) h

/-- The op codes 6 and 7 share their upper three bits (D2). -/
theorem op_reserved67_of_mask {c : Command} (h : c &&& 0xE0000 = 0x60000) :
    c.extractLsb' 16 4 = 0x6 ∨ c.extractLsb' 16 4 = 0x7 := by
  have htop : c.extractLsb' 17 3 = 3 := field_eq_of_mask 17 3 3 (by decide) h
  have hop : c.extractLsb' 17 3 ++ c.extractLsb' 16 1 = c.extractLsb' 16 4 :=
    BitVec.extractLsb'_append_extractLsb'_eq_extractLsb' rfl
  rw [← hop, htop]
  generalize c.extractLsb' 16 1 = low
  revert low
  decide

/-- The op codes 8 to 15 are those with the top bit set (D2). -/
theorem op_reserved8F_of_mask {c : Command} (h : c &&& 0x80000 = 0x80000) : 8 ≤ (c.extractLsb' 16 4).toNat := by
  have htop : c.extractLsb' 19 1 = 1 := field_eq_of_mask 19 1 1 (by decide) h
  have hop : c.extractLsb' 19 1 ++ c.extractLsb' 16 3 = c.extractLsb' 16 4 :=
    BitVec.extractLsb'_append_extractLsb'_eq_extractLsb' rfl
  rw [← hop, htop]
  generalize c.extractLsb' 16 3 = low
  revert low
  decide

/-- The operation of an op code with its operand fields (R62). -/
def operation (op : BitVec 4) (a b : Byte) : Instr :=
  if op = 0x0 then .init
  else if op = 0x1 then .begin
  else if op = 0x2 then .start
  else if op = 0x3 then .poll
  else if op = 0x4 then .setCapsLockLed (b.getLsbD 0)
  else if op = 0x5 then .setRumble a b
  else if op = 0x6 ∨ op = 0x7 then .reserved67
  else .reserved8F

theorem decodeCommand_eq (c : Command) :
    decodeCommand c = operation (c.extractLsb' 16 4) (c.extractLsb' 8 8) (c.extractLsb' 0 8) := rfl

theorem decodeCommand_mkCommand (op : BitVec 4) (a b : Byte) : decodeCommand (mkCommand op a b) = operation op a b := by
  rw [decodeCommand_eq, mkCommand_op, mkCommand_a, mkCommand_b]

theorem operation_reserved67 {op : BitVec 4} (h : op = 0x6 ∨ op = 0x7) (a b : Byte) : operation op a b = .reserved67 := by
  obtain rfl | rfl := h <;> rfl

theorem operation_reserved8F {op : BitVec 4} (h : 8 ≤ op.toNat) (a b : Byte) : operation op a b = .reserved8F := by
  have hne : ∀ v : BitVec 4, v.toNat < 8 → op ≠ v := by
    rintro v hv rfl
    omega
  simp only [operation, hne 0x0 (by decide), hne 0x1 (by decide), hne 0x2 (by decide), hne 0x3 (by decide),
    hne 0x4 (by decide), hne 0x5 (by decide), hne 0x6 (by decide), hne 0x7 (by decide), if_false, or_self]

/-- Settles O3: each mask of the table fixes the op field, and the op field the operation. -/
theorem commandWordFieldsSelectTheOperation : Obligations.CommandWordFieldsSelectTheOperation := by
  intro c
  have hdecode (op : BitVec 4) (h : c.extractLsb' 16 4 = op) :
      decode (.command c) = .ok (operation op (c.extractLsb' 8 8) (c.extractLsb' 0 8)) := by
    rw [decode, decodeCommand_eq, h]
  refine ⟨fun h => hdecode 0 (op_eq_of_mask 0 h), fun h => hdecode 1 (op_eq_of_mask 1 h),
    fun h => hdecode 2 (op_eq_of_mask 2 h), fun h => hdecode 3 (op_eq_of_mask 3 h),
    fun h => ?capsLock, fun h => ?rumble, fun h => ?reserved67, fun h => ?reserved8F⟩
  case capsLock =>
    have hflag : (c.extractLsb' 0 8).getLsbD 0 = c.getLsbD 0 := by simp only [BitVec.getLsbD_extractLsb']; rfl
    rw [hdecode 4 (op_eq_of_mask 4 h), ← hflag]
    rfl
  case rumble =>
    have hleft : c.extractLsb' 8 8 = BitVec.ofNat 8 (c.toNat / 256) :=
      congrArg (BitVec.ofNat 8) (Nat.shiftRight_eq_div_pow _ _)
    have hright : c.extractLsb' 0 8 = BitVec.ofNat 8 c.toNat := rfl
    rw [hdecode 5 (op_eq_of_mask 5 h), ← hleft, ← hright]
    rfl
  case reserved67 => rw [hdecode _ rfl, operation_reserved67 (op_reserved67_of_mask h)]
  case reserved8F => rw [hdecode _ rfl, operation_reserved8F (op_reserved8F_of_mask h)]

end Sys2Proof
end

section
/-! The priority decode of a data word (R59), and decoder and encoder in both directions. -/

namespace Sys2Proof

open Sys2Proof.Machine

/-! ## The data word (R59) -/

/-- The rows of R59 by their masks. -/
theorem decodeDataWord_eq_masks (k hint : Bit) (w : DataWord) :
    decodeDataWord k hint w =
      if k = false ∧ hint = true ∧ w &&& 0x0000FFFF = 0x00000000 then .classifyDisconnected w
      else if k = true then .classifyKeyboard w
      else if w &&& 0x0000F000 = 0x00000000 then .classifyController w
      else if w &&& 0x0000FF00 = 0x0000FF00 ∧ w ≠ 0xFFFFFFFF then .classifyNes w
      else if w &&& 0x0000F000 = 0x00008000 then .classifyMouse w
      else .classifyUnknown w := by
  unfold decodeDataWord
  simp only [isDisconnected_eq, Bool.and_eq_true, Bool.not_eq_true', decide_eq_true_eq, and_assoc,
    matchesController_iff, matchesNes_iff, matchesMouse_iff]

/-- A test on the complement is the test on the word for the flipped value. -/
theorem not_and_eq_iff {n : Nat} (w mask v : BitVec n) : ~~~w &&& mask = v ↔ w &&& mask = v ^^^ mask := by
  have h : ~~~w &&& mask = (w &&& mask) ^^^ mask := by
    apply BitVec.eq_of_getLsbD_eq
    intro i hi
    simp only [BitVec.getLsbD_and, BitVec.getLsbD_not, BitVec.getLsbD_xor, hi, decide_true, Bool.true_and]
    cases w.getLsbD i <;> cases mask.getLsbD i <;> rfl
  constructor
  · intro e
    rw [← e, h, BitVec.xor_assoc, BitVec.xor_self, BitVec.xor_zero]
  · intro e
    rw [h, e, BitVec.xor_assoc, BitVec.xor_self, BitVec.xor_zero]

theorem matchesController_iff_wire (w : DataWord) : matchesController w = true ↔ ~~~w &&& 0x0000F000 = 0x0000F000 := by
  rw [matchesController_iff, not_and_eq_iff]
  rfl

theorem matchesDisconnected_iff_wire (w : DataWord) :
    matchesDisconnected w = true ↔ ~~~w &&& 0x0000FFFF = 0x0000FFFF := by
  rw [matchesDisconnected_iff, not_and_eq_iff]
  rfl

theorem matchesNes_iff_wire (w : DataWord) : matchesNes w = true ↔ ~~~w &&& 0x0000FF00 = 0 ∧ ~~~w ≠ 0 := by
  rw [matchesNes_iff, not_and_eq_iff, ne_eq, ne_eq, not_eq_zero_iff]
  rfl

theorem matchesMouse_iff_wire (w : DataWord) : matchesMouse w = true ↔ ~~~w &&& 0x0000F000 = 0x00007000 := by
  rw [matchesMouse_iff, not_and_eq_iff]
  rfl

/-- Settles O4: the order by the masks, each test on the wire word, and the exclusions by bit 15 and bit 14. -/
theorem dataWordPriorityDecode : Obligations.DataWordPriorityDecode := by
  intro k hint w
  refine ⟨?order, matchesDisconnected_iff_wire w, matchesController_iff_wire w, matchesNes_iff_wire w,
    matchesMouse_iff_wire w, fun hc => ⟨?notNes, ?notMouse⟩, fun hn => ?notMouseNes⟩
  case order => rw [decode, decodeDataWord_eq_masks]
  case notNes =>
    by_contra hn
    rw [not_matchesController_of_bit15 (bit15_of_matchesNes (eq_true_of_ne_false hn))] at hc
    cases hc
  case notMouse =>
    by_contra hm
    rw [not_matchesController_of_bit15 (bit15_of_matchesMouse (eq_true_of_ne_false hm))] at hc
    cases hc
  case notMouseNes =>
    by_contra hm
    rw [not_matchesNes_of_matchesMouse (eq_true_of_ne_false hm)] at hn
    cases hn

/-- Settles O26: `classify` is `typeByMasks`, whose tests are those of R59 in order. -/
theorem classifyFollowsThePriorityOrder : Obligations.ClassifyFollowsThePriorityOrder := by
  intro w k s
  rw [exec, execClassify, classifyWord_eq]
  rfl

/-! ## Decode of encode -/

/-- Without a hint a word is no disconnection, and without a keyboard the masks alone decide. -/
theorem decodeDataWord_unhinted (w : DataWord) :
    decodeDataWord false false w =
      if matchesController w then .classifyController w
      else if matchesNes w then .classifyNes w
      else if matchesMouse w then .classifyMouse w
      else .classifyUnknown w := rfl

theorem decodeDataWord_disconnected {w : DataWord} (h : matchesDisconnected w = true) :
    decodeDataWord false true w = .classifyDisconnected w := if_pos h

theorem decodeDataWord_controller {w : DataWord} (h : matchesController w = true) :
    decodeDataWord false false w = .classifyController w := if_pos h

theorem decodeDataWord_nes {w : DataWord} (h : matchesNes w = true) : decodeDataWord false false w = .classifyNes w := by
  rw [decodeDataWord_unhinted, not_matchesController_of_bit15 (bit15_of_matchesNes h), h]
  rfl

theorem decodeDataWord_mouse {w : DataWord} (h : matchesMouse w = true) :
    decodeDataWord false false w = .classifyMouse w := by
  rw [decodeDataWord_unhinted, not_matchesController_of_bit15 (bit15_of_matchesMouse h),
    not_matchesNes_of_matchesMouse h, h]
  rfl

theorem decodeDataWord_unknown {w : DataWord}
    (h : (!matchesController w && !matchesNes w && !matchesMouse w) = true) :
    decodeDataWord false false w = .classifyUnknown w := by
  simp only [Bool.and_eq_true, Bool.not_eq_true'] at h
  obtain ⟨⟨hcontroller, hnes⟩, hmouse⟩ := h
  rw [decodeDataWord_unhinted, hcontroller, hnes, hmouse]
  rfl

theorem decode_demux_nes {w : DataWord} (h : matchesNesMarker w = true) : decode (.demux .nes w) = .ok (.demuxNes w) := by
  rw [decode, decodeDemux, if_pos h]

theorem decode_demux_mouse {w : DataWord} (h : matchesMouse w = true) : decode (.demux .mouse w) = .ok (.demuxMouse w) := by
  rw [decode, decodeDemux, if_pos h]

theorem decode_kbdPacket_append (id : Byte) (count : BitVec 4) :
    decode (.kbdPacket (count ++ id)) = .ok (.kbdPacket id count) := by
  have hid : (count ++ id : BitVec 12).extractLsb' 0 8 = id := BitVec.extractLsb'_append_eq_right
  have hcount : (count ++ id : BitVec 12).extractLsb' 8 4 = count := BitVec.extractLsb'_append_eq_left
  rw [decode, hid, hcount]

theorem decode_rumble_append (right left : BitVec 4) :
    decode (.rumble (rumbleMagic ++ right ++ left)) = .ok (.rumbleFrame right left) := by
  revert right left
  decide

/-- A host row is read back from the command word of its op code. -/
theorem decode_mkCommand {op : BitVec 4} {a b : Byte} {i : Instr} (h : operation op a b = i) :
    decode (.command (mkCommand op a b)) = .ok i := by
  rw [decode, decodeCommand_mkCommand, h]

/-- Settles O1: row by row, the frame `encode` writes is read back. -/
theorem decodeOfEncodeIsIdentity : Obligations.DecodeOfEncodeIsIdentity := by
  intro i hwf hrow
  cases i
  case init | begin | start | poll | setRumble | reserved67 | reserved8F => exact ⟨_, rfl, decode_mkCommand rfl⟩
  case setCapsLockLed flag => exact ⟨_, rfl, decode_mkCommand (by cases flag <;> rfl)⟩
  case classifyDisconnected w => exact ⟨_, rfl, congrArg _ (decodeDataWord_disconnected hwf)⟩
  case classifyKeyboard w => exact ⟨_, rfl, rfl⟩
  case classifyController w => exact ⟨_, rfl, congrArg _ (decodeDataWord_controller hwf)⟩
  case classifyNes w => exact ⟨_, rfl, congrArg _ (decodeDataWord_nes hwf)⟩
  case classifyMouse w => exact ⟨_, rfl, congrArg _ (decodeDataWord_mouse hwf)⟩
  case classifyUnknown w => exact ⟨_, rfl, congrArg _ (decodeDataWord_unknown hwf)⟩
  case demuxController w => exact ⟨_, rfl, decode_demux_controller hwf⟩
  case demuxNes w => exact ⟨_, rfl, decode_demux_nes hwf⟩
  case demuxMouse w => exact ⟨_, rfl, decode_demux_mouse hwf⟩
  case kbdPacket id count => exact ⟨_, rfl, decode_kbdPacket_append id count⟩
  case rumbleFrame right left => exact ⟨_, rfl, decode_rumble_append right left⟩
  case speedSlow | speedFast | speedMedium | speedMalformed | kbdIdMatch | kbdIdHeal | kbdIdEarly => exact ⟨_, rfl, rfl⟩
  all_goals cases hrow

/-! ## What the decoder answers -/

/-- A well-formed row with an encoding that is a host row exactly if `host`. -/
def IsRow (host : Bool) (i : Instr) : Prop := WellFormed i = true ∧ isMicro i = false ∧ isHostRow i = host

theorem isRow_operation (op : BitVec 4) (a b : Byte) : IsRow true (operation op a b) := by
  unfold operation
  split_ifs <;> exact ⟨rfl, rfl, rfl⟩

theorem isRow_decodeDataWord (k hint : Bit) (w : DataWord) : IsRow false (decodeDataWord k hint w) := by
  unfold decodeDataWord
  split_ifs with hdisc hk hcontroller hnes hmouse
  · simp only [isDisconnected, Bool.and_eq_true] at hdisc
    exact ⟨hdisc.2, rfl, rfl⟩
  · exact ⟨rfl, rfl, rfl⟩
  · exact ⟨hcontroller, rfl, rfl⟩
  · exact ⟨hnes, rfl, rfl⟩
  · exact ⟨hmouse, rfl, rfl⟩
  · refine ⟨?_, rfl, rfl⟩
    simp only [WellFormed, hcontroller, hnes, hmouse]
    rfl

/-- A row that is answered under a check is answered only where the check holds. -/
theorem eq_of_checked {c : Prop} [Decidable c] {i j : Instr} {e : DecodeError}
    (h : (if c then .ok i else .error e : Except DecodeError Instr) = .ok j) : c ∧ i = j := by
  split_ifs at h with hc
  cases h
  exact ⟨hc, rfl⟩

theorem isRow_of_decodeDemux {t : DeviceType} {w : DataWord} {i : Instr} (h : decodeDemux t w = .ok i) :
    IsRow false i := by
  cases t with
  | none | keyboard => cases h
  | controller | nes | mouse =>
    obtain ⟨hpattern, rfl⟩ := eq_of_checked h
    exact ⟨hpattern, rfl, rfl⟩

theorem isRow_decodeSpeed (field : BitVec 2) : IsRow false (decodeSpeed field) := by
  unfold decodeSpeed
  split_ifs <;> exact ⟨rfl, rfl, rfl⟩

theorem isRow_of_decodeKbdId {id : Byte} {i : Instr} (h : decodeKbdId id = .ok i) : IsRow false i := by
  unfold decodeKbdId at h
  split_ifs at h <;> cases h <;> exact ⟨rfl, rfl, rfl⟩

/-- Settles O2: format by format, a command frame decodes to a host row and every other frame to another row. -/
theorem decodedInstructionsAreTableRows : Obligations.DecodedInstructionsAreTableRows := by
  intro f i h
  change IsRow (isCommandFrame f) i
  cases f with
  | command cmd =>
    cases h
    exact isRow_operation _ _ _
  | dataWord k hint w =>
    cases h
    exact isRow_decodeDataWord k hint w
  | demux t w => exact isRow_of_decodeDemux h
  | mouseSpeed field =>
    cases h
    exact isRow_decodeSpeed field
  | kbdId id => exact isRow_of_decodeKbdId h
  | kbdPartial p =>
    obtain ⟨-, rfl⟩ := eq_of_checked h
    exact ⟨rfl, rfl, rfl⟩
  | kbdPacket header =>
    cases h
    exact ⟨rfl, rfl, rfl⟩
  | rumble frame =>
    obtain ⟨-, rfl⟩ := eq_of_checked h
    exact ⟨rfl, rfl, rfl⟩

/-- Settles O5: each word is evaluated. -/
theorem wordsWrittenOutDecode : Obligations.WordsWrittenOutDecode := by
  unfold Obligations.WordsWrittenOutDecode
  decide

end Sys2Proof
end

section
/-! The step and the register operations: what each host row that makes no read cycle leaves (R75, R76, R92, R94), and the
rows that only store. -/

namespace Sys2Proof.Machine

/-! ## The step (R43, R64, R116) -/

theorem step_decoded {s : State} {f : Frame} {rest : List Frame} {i : Instr} (h : s.inbox = f :: rest)
    (hf : decode f = .ok i) : step s = exec i { s with inbox := rest } := by
  simp only [step, State.fetch, h, hf]

theorem step_rejected {s : State} {f : Frame} {rest : List Frame} {e : DecodeError} (h : s.inbox = f :: rest)
    (hf : decode f = .error e) : step s = silently e { s with inbox := rest } := by
  simp only [step, State.fetch, h, hf]

theorem step_idle {s : State} (h : s.inbox = []) : step s = .next s := by
  simp only [step, State.fetch, h]

theorem step_issue_decoded {s : State} {f : Frame} {i : Instr} (hf : decode f = .ok i) : step (s.issue f) = exec i s :=
  step_decoded rfl hf

theorem step_issue_rejected {s : State} {f : Frame} {e : DecodeError} (hf : decode f = .error e) :
    step (s.issue f) = silently e s :=
  step_rejected rfl hf

/-- Settles O6: the oldest frame decides. -/
theorem stepRunsTheDecodedInstruction : Obligations.StepRunsTheDecodedInstruction :=
  ⟨fun _ _ _ _ => step_decoded, fun _ _ _ => step_issue_decoded, fun _ _ _ _ => step_rejected, fun _ => step_idle⟩

/-! ## Reset, INIT, BEGIN, the phase check and the outputs -/

/-- Settles O8: each value is the field of `State.reset`. -/
theorem resetHoldsTheValuesOfTheSpec : Obligations.ResetHoldsTheValuesOfTheSpec :=
  ⟨rfl, rfl, rfl, rfl, rfl, rfl, rfl, rfl⟩

theorem exec_init (s : State) : exec .init s = .next { s.beginOp with
    phase := .uninitialized
    devType := .none
    pad := .released
    mouse := ⟨Config.freeByte s.freeIdx, Config.freeByte (s.freeIdx + 1), 0, 0⟩
    kbd := .reset
    rumble := .reset
    freeIdx := s.freeIdx + 2 } := rfl

/-- Settles O9: the coordinates are the two free values drawn. -/
theorem initReturnsEveryElementToReset : Obligations.InitReturnsEveryElementToReset :=
  fun s => ⟨_, _, _, exec_init s⟩

/-- The pins once `begin` has configured them (R76). -/
def PinState.configured (p : PinState) : PinState :=
  { p with clkDir := .output, latchDir := .output, ioDir := .output, d0Dir := .inputPullUp, d1Dir := .inputPullUp }

theorem exec_begin (s : State) : exec .begin s = .next { s with
    phase := .running
    pins := s.pins.configured
    trace := [.config .clk .output, .config .latch .output, .config .io .output, .config .d0 .inputPullUp,
      .config .d1 .inputPullUp]
    ret := .none } := by
  simp [exec, execBegin, configurePins, pinConfig, configuredDir, State.emit, State.beginOp, PinState.configured]

/-- Settles O10: the five configurations in a row leave the pins `configured`. -/
theorem beginConfiguresThePinsAndRuns : Obligations.BeginConfiguresThePinsAndRuns := exec_begin

theorem exec_startOrPoll_uninitialized {s : State} (h : s.phase = .uninitialized) {i : Instr}
    (hi : i = .start ∨ i = .poll) : exec i s = .refused .notBegun := by
  obtain ⟨hrunning, -⟩ | ⟨-, hrefused⟩ := exec_startOrPoll_cases hi s
  · rw [h] at hrunning
    cases hrunning
  · exact hrefused

/-- Settles O11: the phase check, and the two rows that are always refused. -/
theorem refusalsBeforeBeginAndOfReservedCommands : Obligations.RefusalsBeforeBeginAndOfReservedCommands :=
  ⟨fun _ h => ⟨exec_startOrPoll_uninitialized h (.inl rfl), exec_startOrPoll_uninitialized h (.inr rfl)⟩,
    fun s => ⟨exec_reserved (.inl rfl) s, exec_reserved (.inr rfl) s⟩⟩

theorem State.outputs_scancodes_length (s : State) : s.outputs.scancodes.length = s.kbd.len.toNat := by
  have hlen := s.kbd.len.isLt
  rw [State.outputs, List.length_take, Vector.length_toList]
  omega

theorem State.outputs_scancodes_getElem (s : State) {i : Fin 16} (h : i.val < s.kbd.len.toNat) :
    s.outputs.scancodes[i.val]? = some s.kbd.buf[i] := by
  rw [State.outputs, List.getElem?_take_of_lt h, List.getElem?_eq_getElem (by simp), Vector.getElem_toList]
  rfl

/-- Settles O12: every output but the scancode sequence is a register, and the sequence is the buffer up to its length. -/
theorem outputsAreTheirRegisters : Obligations.OutputsAreTheirRegisters :=
  ⟨rfl, rfl, rfl, rfl, rfl, fun s => ⟨rfl, rfl, rfl, rfl, rfl, rfl, s.outputs_scancodes_length,
    fun _ => s.outputs_scancodes_getElem⟩⟩

/-- Settles O14: both rows make the same phase check, and without a device the body of `poll` is re-detection. -/
theorem pollWithoutADeviceIsStart : Obligations.PollWithoutADeviceIsStart := by
  intro s h
  have hbody : pollCycle s.beginOp = redetect s.beginOp := if_pos h
  rw [exec, exec, execPoll, execStart, whenRunning, whenRunning, hbody]

/-! ## The caps-lock flag and the rumble setting -/

theorem exec_setCapsLockLed (flag : Bit) (s : State) : exec (.setCapsLockLed flag) s =
    .next { s with kbd := { s.kbd with capsLock := flag }, trace := [], ret := .none } := rfl

/-- Settles O18: the flag is the one register written. -/
theorem setCapsLockLedStoresItsOperand : Obligations.SetCapsLockLedStoresItsOperand := exec_setCapsLockLed

/-- RumbleState once a setting has been loaded (R94). -/
def RumbleState.loaded (r : RumbleState) (right left : BitVec 4) : RumbleState :=
  if left = r.left ∧ right = r.right then r
  else ⟨left, right, BitVec.ofNat 16 (0x7200 + right.toNat * 16 + left.toNat), 15, true⟩

theorem loadRumble_eq_loaded (right left : BitVec 4) (s : State) :
    loadRumble right left s = { s with rumble := s.rumble.loaded right left } := by
  rw [loadRumble_eq, mkRumbleFrame_eq_add]
  rfl

theorem exec_setRumble (left right : Byte) (s : State) : exec (.setRumble left right) s = .next { s with
    trace := []
    ret := .none
    rumble := s.rumble.loaded (scaleRumble right) (scaleRumble left) } := by
  rw [exec, execSetRumble, loadRumble_eq_loaded]
  rfl

theorem exec_rumbleFrame (right left : BitVec 4) (s : State) :
    exec (.rumbleFrame right left) s = .next { s with rumble := s.rumble.loaded right left } := by
  rw [exec, execRumbleFrame, loadRumble_eq_loaded]

/-- Settles O19: the scaled operands are what is loaded. -/
theorem setRumbleStoresScaledIntensities : Obligations.SetRumbleStoresScaledIntensities :=
  fun left right s => ⟨scaleRumble left, scaleRumble right, scaleRumble_toNat left, scaleRumble_toNat right,
    exec_setRumble left right s⟩

/-- The frame sent is the magic byte and the two nibbles (R57). -/
theorem mkRumbleFrame_eq_append (right left : BitVec 4) : mkRumbleFrame right left = rumbleMagic ++ right ++ left := by
  revert right left
  decide

/-- Settles O20: the row loads its nibbles, and the frame of a safe state is the row of the stored intensities. -/
theorem rumbleFrameRowIsStoredAndIsTheFrameSent : Obligations.RumbleFrameRowIsStoredAndIsTheFrameSent := by
  refine ⟨exec_rumbleFrame, fun s hs => ?_⟩
  rw [hs.rumbleFrame, ← mkRumbleFrame_eq, mkRumbleFrame_eq_append, decode_rumble_append]

/-! ## The rows that only store -/

/-- Settles O22: each row stores its type and returns the word. -/
theorem classificationRowsStoreTheType : Obligations.ClassificationRowsStoreTheType :=
  fun _ _ => ⟨rfl, rfl, rfl, rfl, rfl⟩

theorem exec_demuxNes (w : DataWord) (s : State) : exec (.demuxNes w) s = .next (demuxNes w s) := by
  rw [exec, execDemuxNes]

/-- Settles O28: the row's mask is the NES marker, and each of the eight bits is complemented from the wire. -/
theorem demuxNesCopiesEightBits : Obligations.DemuxNesCopiesEightBits := by
  intro r s
  refine ⟨fun h => decode_demux_nes ((matchesNesMarker_iff _).mpr h), ?_⟩
  rw [exec_demuxNes, demuxNes]
  simp only [not_wire_getLsbD r, Nat.reduceLT]

/-! ## The pin primitives (R67 to R70) -/

/-- Settles O32: one pin driven and one event, or one event alone. -/
theorem pinWriteDrivesAndDelayOnlyWaits : Obligations.PinWriteDrivesAndDelayOnlyWaits :=
  fun _ _ _ => ⟨rfl, rfl, rfl, rfl⟩

/-- Settles O33: the head of the listed answers, or a free value. -/
theorem pinReadReturnsTheAnswer : Obligations.PinReadReturnsTheAnswer := by
  intro p s
  refine ⟨fun b rest h => ?listed, fun h => ⟨Config.freeAnswer s.freeIdx, s.freeIdx + 1, ?free⟩⟩
  all_goals
    rw [exec, execPinRead, pinRead, State.answer, State.dropAnswer]
    simp only [h]
    rfl

/-- A direction written is read back on its own pin and leaves the others. -/
theorem PinState.dir_setDir (ps : PinState) (p q : Pin) (d : PinDir) :
    (ps.setDir p d).dir q = if q = p then d else ps.dir q := by
  cases p <;> cases q <;> rfl

theorem PinState.out_setDir (ps : PinState) (p : Pin) (d : PinDir) (q : OutPin) : (ps.setDir p d).out q = ps.out q := by
  cases p <;> cases q <;> rfl

/-- Settles O34: what is configured, and that `setDir` writes one direction only. -/
theorem pinConfigSetsTheDirection : Obligations.PinConfigSetsTheDirection :=
  fun p _ s => ⟨rfl, rfl, ⟨_, _, rfl⟩, fun d => (s.pins.dir_setDir p p d).trans (if_pos rfl),
    fun d q h => (s.pins.dir_setDir p q d).trans (if_neg h), s.pins.out_setDir p⟩

end Sys2Proof.Machine
end

section
/-! The mouse: the speed update of R87 and the recentred coordinates of R86. -/

namespace Sys2Proof.Machine

/-! ## The speed state (R60, R87) -/

theorem speedUpdate_eq_afterSpeed (f : BitVec 2) (s : State) :
    speedUpdate f s = { s with mouse := s.mouse.afterSpeed f } := by
  rw [speedUpdate, updateSpeed_eq]

theorem exec_mouseSpeedUpdate (w : DataWord) (s : State) :
    exec (.mouseSpeedUpdate w) s = .next { s with mouse := s.mouse.afterSpeed (speedField w) } := by
  rw [exec, execMouseSpeedUpdate, mouseSpeedUpdate, speedUpdate_eq_afterSpeed]

theorem exec_classifyMouse (w : DataWord) (s : State) : exec (.classifyMouse w) s =
    .next { s with mouse := s.mouse.afterSpeed (speedField w), devType := .mouse, ret := .word w } := by
  rw [exec, execClassifyMouse, mouseSpeedUpdate, speedUpdate_eq_afterSpeed]
  rfl

theorem speedField_toNat (w : DataWord) : (speedField w).toNat = w.toNat / 1024 % 4 := by
  rw [speedField, BitVec.extractLsb'_toNat, Nat.shiftRight_eq_div_pow]

theorem speedOf_toNat (f : BitVec 2) : (speedOf f).toNat = if f.toNat = 3 then 0 else f.toNat := by
  revert f
  decide

/-- Settles O23: the value stored is `speedOf` of the field. -/
theorem mouseWordUpdatesTheSpeedState : Obligations.MouseWordUpdatesTheSpeedState := by
  intro w s
  refine ⟨speedOf (speedField w), ?_, exec_mouseSpeedUpdate w s, exec_classifyMouse w s⟩
  rw [speedOf_toNat, speedField_toNat]

/-- The counter keeps its value, or rises by one from below its threshold (R87). -/
theorem MouseState.afterSpeed_fails_cases (m : MouseState) (f : BitVec 2) :
    (m.afterSpeed f).fails = m.fails ∨
      (m.afterSpeed f).fails = m.fails + 1 ∧ (m.afterSpeed f).fails ≤ Config.mouseFailThreshold := by
  unfold MouseState.afterSpeed
  split
  case isTrue h =>
    obtain ⟨-, -, hbelow⟩ := h
    exact .inr ⟨rfl, hbelow⟩
  case isFalse => exact .inl rfl

/-- A fast mouse counts no stagnant reading. -/
theorem MouseState.afterSpeed_fast (m : MouseState) : m.afterSpeed 1 = { m with speed := 1 } := rfl

/-- The row of a field is `mouse_speed_update` on it (log 9). -/
theorem exec_decodeSpeed (f : BitVec 2) (s : State) :
    exec (decodeSpeed f) s = .next { s with mouse := s.mouse.afterSpeed f } := by
  rw [← speedUpdate_eq_afterSpeed]
  obtain rfl | rfl | rfl | rfl : f = 0 ∨ f = 1 ∨ f = 2 ∨ f = 3 := by revert f; decide
  all_goals rfl

/-- Settles O25: all four rows are `mouse_speed_update` on their field, and 3 is stored as 0. -/
theorem speedRowsAreTheSpeedUpdate : Obligations.SpeedRowsAreTheSpeedUpdate := by
  intro s
  refine ⟨⟨_, exec_decodeSpeed 0 s, s.mouse.afterSpeed_fails_cases 0⟩, ?fast,
    ⟨_, exec_decodeSpeed 2 s, s.mouse.afterSpeed_fails_cases 2⟩, ?malformed, fun w i hi => ?field⟩
  case fast => exact (exec_decodeSpeed 1 s).trans (by rw [MouseState.afterSpeed_fast])
  case malformed => exact (exec_decodeSpeed 3 s).trans (exec_decodeSpeed 0 s).symm
  case field =>
    cases hi
    rw [exec_decodeSpeed, exec_mouseSpeedUpdate, speedField]

/-! ## The coordinates (R58 (d), (e), R86) -/

/-- The magnitude is its 7-bit field reversed in the byte (R58 (d)). -/
theorem magnitude_getLsbD (field : BitVec 7) {k : Nat} (h : k < 7) :
    (magnitude field).getLsbD (7 - k) = field.getLsbD k := by
  have hk : 7 - (7 - k) = k := by omega
  have h8 : k < 8 := by omega
  rw [magnitude, rev8_getLsbD _ _ (by omega), hk, BitVec.zeroExtend, BitVec.getLsbD_setWidth, decide_eq_true h8,
    Bool.true_and]

theorem magnitude_getLsbD_zero (field : BitVec 7) : (magnitude field).getLsbD 0 = false := by
  rw [magnitude, rev8_getLsbD _ _ (by decide), BitVec.zeroExtend, BitVec.getLsbD_setWidth,
    BitVec.getLsbD_of_ge _ _ (by decide)]
  rfl

theorem exec_demuxMouse (w : DataWord) (s : State) : exec (.demuxMouse w) s = .next (demuxMouse w s) := by
  rw [exec, execDemuxMouse]

/-- Settles O29: the bytes are the magnitudes of the two fields. -/
theorem demuxMouseRecentresTheCoordinates : Obligations.DemuxMouseRecentresTheCoordinates := by
  intro w s
  refine ⟨magnitude (xField w), magnitude (yField w), fun k hk => ⟨?xBit, ?yBit⟩, magnitude_getLsbD_zero _,
    magnitude_getLsbD_zero _, fun h => decode_demux_mouse ((matchesMouse_iff w).mpr h), exec_demuxMouse w s⟩
  case xBit => exact (magnitude_getLsbD _ hk).trans (getLsbD_of_field rfl k hk).symm
  case yBit => exact (magnitude_getLsbD _ hk).trans (getLsbD_of_field rfl k hk).symm

/-- Narrowing loses nothing where the value fits the register (R88 (c), D15). -/
theorem narrowCoord_toNat_of_lt {n : Nat} (h : n < 256) : (narrowCoord n).toNat = n := by
  rw [narrowCoord, BitVec.toNat_ofInt]
  omega

/-- To the right of the centre (R86). -/
theorem mouseCoord_positive {p : Nat} {field : BitVec 7} (h : 127 + (magnitude field).toNat * p < 256) :
    (mouseCoord p field false).toNat = 127 + (magnitude field).toNat * p :=
  narrowCoord_toNat_of_lt h

/-- To the left of the centre (R86). -/
theorem mouseCoord_negative {p : Nat} {field : BitVec 7} (h : (magnitude field).toNat * p ≤ 127) :
    (mouseCoord p field true).toNat + (magnitude field).toNat * p = 127 := by
  have hcoord : mouseCoord p field true = narrowCoord ((127 - (magnitude field).toNat * p : Nat) : Int) :=
    congrArg narrowCoord (by push_cast [h]; rfl)
  rw [hcoord, narrowCoord_toNat_of_lt (by omega)]
  omega

/-- Settles O30: on each axis one lemma for either sign. -/
theorem mouseCoordinateInRangeIsExact : Obligations.MouseCoordinateInRangeIsExact := by
  intro w s
  refine ⟨demuxMouse w s, exec_demuxMouse w s, fun hsign h => ?_, fun hsign h => ?_, fun hsign h => ?_,
    fun hsign h => ?_⟩ <;> simp only [demuxMouse, hsign]
  · exact mouseCoord_positive h
  · exact mouseCoord_negative h
  · exact mouseCoord_positive h
  · exact mouseCoord_negative h

end Sys2Proof.Machine
end

section
/-! The transport micro-operations as instructions (R71 to R73), the keyboard rows (R55, R61, R89 to R91), and the early exit at
position 3 (R90, D11). -/

namespace Sys2Proof.Machine

/-! ## Transport -/

theorem State.requestsSpeed_iff (s : State) : s.requestsSpeed = true ↔
    s.devType = .mouse ∧ s.mouse.speed ≠ 1 ∧ s.mouse.fails < Config.mouseFailThreshold := by
  simp only [State.requestsSpeed, Bool.and_eq_true, decide_eq_true_eq, and_assoc]

theorem exec_latchAndPrime (s : State) : exec .latchAndPrime s =
    .next { s with pins := s.pins.latched s.requestsSpeed, trace := s.trace ++ s.latchTrace } := by
  rw [exec, execLatchAndPrime, latchAndPrime_eq, State.ran, State.consumed_zero]

/-- Settles O35: the latch's own trace and pins, with the request and without. -/
theorem latchAndPrimeEmitsTheSpeedRequest : Obligations.LatchAndPrimeEmitsTheSpeedRequest := by
  intro s
  rw [exec_latchAndPrime]
  by_cases h : s.requestsSpeed = true
  · rw [if_pos (s.requestsSpeed_iff.mp h), State.latchTrace, h]
    rfl
  · rw [if_neg (mt s.requestsSpeed_iff.mpr h), State.latchTrace, eq_false_of_ne_true h]
    rfl

theorem exec_shiftBit (p : InPin) (s : State) : exec (.shiftBit p) s = .next { s.consumed 1 with
    trace := s.trace ++
      (s.rumbleEvents ++ [.write .clk false, .delay 12, .read p (s.answerAt 0), .write .clk true, .delay 12])
    pins := s.pinsSampled 1
    rumble := { s.rumble with cursor := s.rumble.cursorAfter 1 }
    ret := .bit (s.answerAt 0) } := by
  rw [exec, execShiftBit, shiftBit_eq]
  rfl

/-- One step down the ring of 16 in numbers: 0 wraps to 15 (R88 (f)). -/
theorem cursor_sub_one_eq (c : BitVec 4) : c - 1 = BitVec.ofNat 4 (if c.toNat = 0 then 15 else c.toNat - 1) := by
  revert c
  decide

/-- Settles O36: an active channel sends its bit and steps its cursor, an idle one does neither. -/
theorem shiftBitSamplesAndSendsARumbleBit : Obligations.ShiftBitSamplesAndSendsARumbleBit := by
  intro p s
  simp only [exec_shiftBit, State.rumbleEvents, State.pinsSampled, RumbleState.cursorAfter, ← cursor_sub_one_eq]
  by_cases h : s.rumble.active = true
  · simp [h]
  · simp only [if_neg h]
    rfl

theorem exec_shiftDibit (s : State) : exec .shiftDibit s = .next { s.consumed 2 with
    pins := { s.pins with clkOut := .driven true }
    trace := s.trace ++ s.dibitEvents 0
    ret := .dibit (mkDibit (s.answerAt 0) (s.answerAt 1)) } := by
  rw [exec, execShiftDibit, shiftDibit_eq]
  rfl

theorem mkDibit_toNat (a b : Bit) : (mkDibit a b).toNat = a.toNat + 2 * b.toNat := by
  revert a b
  decide

/-- Settles O37: the dibit returned is data0 and data1 assembled. -/
theorem shiftDibitSamplesBothLines : Obligations.ShiftDibitSamplesBothLines :=
  fun s => ⟨_, mkDibit_toNat _ _, exec_shiftDibit s⟩

/-! ## The keyboard rows -/

theorem kbdId_eq : kbdId = 0x78 := rfl

theorem kbdIdGlitch_eq : kbdIdGlitch = 0x79 := by decide

theorem idAccepted_expected (t : DeviceType) : idAccepted t 0x78 = true := by
  cases t <;> rfl

theorem idAccepted_glitch (t : DeviceType) : idAccepted t 0x79 = decide (t = .keyboard) := by
  cases t <;> rfl

theorem idAccepted_other (t : DeviceType) {id : Byte} (h78 : id ≠ 0x78) (h79 : id ≠ 0x79) : idAccepted t id = false := by
  rw [idAccepted, decide_eq_false h78, decide_eq_false h79]
  rfl

theorem exec_kbdIdMatch (s : State) : exec .kbdIdMatch s = .next { s.idDone false 0x78 with ret := .bit true } := by
  rw [exec, execKbdIdMatch, afterId_eq, kbdId_eq, idAccepted_expected]
  rfl

theorem exec_kbdIdHeal (s : State) : exec .kbdIdHeal s =
    .next { s.idDone false 0x79 with ret := .bit (decide (s.devType = .keyboard)) } := by
  rw [exec, execKbdIdHeal, afterId_eq, kbdIdGlitch_eq, idAccepted_glitch]
  rfl

/-- The ID of the early exit is the expected one (R90). -/
theorem exec_kbdIdEarly (s : State) : exec .kbdIdEarly s = .next { s.idDone false 0x78 with ret := .bit true } := by
  rw [exec, execKbdIdEarly, afterId_eq, (by decide : earlyId earlyPartial = 0x78), idAccepted_expected]
  rfl

theorem exec_kbdPacket (id : Byte) (count : BitVec 4) (s : State) : exec (.kbdPacket id count) s =
    .next { s.headerDone false id count with ret := .bit (idAccepted s.devType id) } := by
  rw [exec, execKbdPacket, afterHeader_eq]
  rfl

/-- Settles O39: each row is the tail of the sub-read from its pattern on. -/
theorem keyboardRowsGoOnWithTheSubRead : Obligations.KeyboardRowsGoOnWithTheSubRead :=
  fun s => ⟨exec_kbdIdMatch s, exec_kbdIdEarly s, exec_kbdIdHeal s, fun id count => exec_kbdPacket id count s⟩

/-- Settles O40: the sub-read of the packet format, as an instruction. -/
theorem keyboardSubReadFollowsThePacketFormat : Obligations.KeyboardSubReadFollowsThePacketFormat := exec_kbdSubread

/-! ## Patterns that are no row (R64) -/

theorem decode_kbdId_other {id : Byte} (h78 : id ≠ 0x78) (h79 : id ≠ 0x79) :
    decode (.kbdId id) = .error (.notAKeyboardId id) := by
  rw [decode, decodeKbdId, kbdId_eq, kbdIdGlitch_eq, if_neg h78, if_neg h79]

theorem decode_kbdPartial_other {p : BitVec 6} (h : p ≠ 0x1E) : decode (.kbdPartial p) = .error (.notAnEarlyPartial p) := by
  have hpattern : ∀ p : BitVec 6, p.zeroExtend 8 = earlyPartial → p = 0x1E := by decide
  rw [decode, if_neg (mt (hpattern p) h)]

theorem decode_rumble_other {f : BitVec 16} (h : f.extractLsb' 8 8 ≠ 0x72) :
    decode (.rumble f) = .error (.notARumbleFrame f) :=
  if_neg h

/-- A frame that is a row only under a check, where the row and the silent outcome come to the same. -/
theorem step_issue_checked {f : Frame} {c : Prop} [Decidable c] {i : Instr} {e : DecodeError} {s t : State}
    (hf : decode f = if c then .ok i else .error e) (hrow : exec i s = .next t) (hsilent : silently e s = .next t) :
    step (s.issue f) = .next t := by
  split at hf
  · exact (step_issue_decoded hf).trans hrow
  · exact (step_issue_rejected hf).trans hsilent

/-- A demultiplexer frame runs the demultiplexer of its type on any word, a row or not (R64, R79). -/
theorem step_issue_demux (t : DeviceType) (w : DataWord) (s : State) :
    step (s.issue (.demux t w)) = .next (demuxAs t w s) := by
  cases t with
  | none | keyboard => exact step_issue_rejected (f := .demux _ w) (e := .noDemultiplexer _ w) rfl
  | controller | nes | mouse => exact step_issue_checked rfl rfl rfl

/-- Settles O21: each pattern is an error of the decoder with its silent outcome. -/
theorem unrecognisedPatternsHaveSilentOutcomes : Obligations.UnrecognisedPatternsHaveSilentOutcomes := by
  intro s
  refine ⟨fun id h78 h79 => ?mismatch, fun p hp => ⟨_, rfl, ?partialId⟩,
    fun w => ⟨step_issue_demux .controller w s, step_issue_demux .nes w s, step_issue_demux .mouse w s,
      step_issue_demux .keyboard w s, step_issue_demux .none w s⟩, fun f hf => ?rumble⟩
  case mismatch =>
    rw [step_issue_rejected (decode_kbdId_other h78 h79), silently_eq, ← idAccepted_other s.devType h78 h79]
  case partialId => rw [step_issue_rejected (decode_kbdPartial_other hp), silently_eq]
  case rumble => rw [step_issue_rejected (decode_rumble_other hf), silently_eq]

/-! ## The early exit at position 3 (R90, D11) -/

theorem earlyExit_three (j : Nat) (id : Byte) : earlyExit 3 j id = true ↔ j = 2 ∧ id = 0x1E := by
  rw [earlyExit, (by decide : earlyPartial = 0x1E), Bool.and_eq_true, decide_eq_true_eq, decide_eq_true_eq]
  exact and_congr_left fun _ => by omega

theorem earlyExit_three_of_ne {j : Nat} (h : j ≠ 2) (id : Byte) : earlyExit 3 j id = false :=
  eq_false_of_ne_true fun e => h ((earlyExit_three j id).mp e).1

/-- The ID byte after the first three dibits. -/
def State.threeDibits (s : State) : Byte :=
  putDibit (putDibit (putDibit 0 0 (mkDibit (s.answerAt 0) (s.answerAt 1))) 1 (mkDibit (s.answerAt 2) (s.answerAt 3))) 2
    (mkDibit (s.answerAt 4) (s.answerAt 5))

theorem State.threeDibits_eq (s : State) : s.threeDibits = (s.valueAt 0 6).setWidth 8 := by
  apply BitVec.eq_of_getLsbD_eq
  intro m hm
  rw [State.threeDibits, putDibit_mkDibit_getLsbD _ _ _ _ _ (by decide), putDibit_mkDibit_getLsbD _ _ _ _ _ (by decide),
    putDibit_mkDibit_getLsbD _ _ _ _ _ (by decide), BitVec.getLsbD_setWidth, State.valueAt_getLsbD]
  interval_cases m <;> rfl

theorem State.threeDibits_eq_iff (s : State) : s.threeDibits = 0x1E ↔ s.valueAt 0 6 = 0x1E := by
  rw [State.threeDibits_eq]
  generalize s.valueAt 0 6 = v
  revert v
  decide

/-- The state after the first three dibits, with the ID-only write after the first (R89 step 2). -/
def State.threePulses (s : State) (o : Bit) : State :=
  s.ran 6 (s.dibitEvents 0 ++ (if o = true then [.write .io true] else []) ++ s.dibitEvents 2 ++ s.dibitEvents 4)
    { s.pins with clkOut := .driven true, ioOut := if o = true then .driven true else s.pins.ioOut } s.rumble.cursor s.kbd

/-- The ID loop up to its third dibit, at a position that stops neither of the first two. -/
theorem shiftId_three {ea : Nat} (h0 : ∀ id, earlyExit ea 0 id = false)
    (h1 : ∀ a b c d : Bit, earlyExit ea 1 (putDibit (putDibit 0 0 (mkDibit a b)) 1 (mkDibit c d)) = false) (o : Bit)
    (k : Nat) (s : State) : shiftId ea o (k + 3) 0 0 s =
      if earlyExit ea 2 s.threeDibits then (earlyId s.threeDibits, s.threePulses o)
      else shiftId ea o k 3 s.threeDibits (s.threePulses o) := by
  simp only [shiftId, shiftDibit_eq, h0, h1, State.threeDibits, State.threePulses]
  cases o <;> simp [pinWrite_eq]

/-- The fourth dibit stops nothing at position 2 or 3. -/
theorem shiftId_fourth {ea : Nat} (h3 : ∀ id, earlyExit ea 3 id = false) (o : Bit) (id : Byte) (s : State) :
    shiftId ea o 1 3 id s = (putDibit id 3 (shiftDibit s).1, (shiftDibit s).2) := by
  simp only [shiftId, h3]
  rfl

/-- Where the first six bits are no early ID, position 3 stops nothing, as position 2 does (R90 (b), (c)). -/
theorem shiftId_three_full {o : Bit} {s : State} (h : s.valueAt 0 6 ≠ 0x1E) :
    shiftId 3 o 4 0 0 s = shiftId kbdEarlyAfter o 4 0 0 s := by
  have hno : earlyExit 3 2 s.threeDibits = false :=
    eq_false_of_ne_true fun e => h (s.threeDibits_eq_iff.mp ((earlyExit_three 2 _).mp e).2)
  rw [shiftId_three (earlyExit_three_of_ne (by decide)) (fun _ _ _ _ => earlyExit_three_of_ne (by decide) _) o 1,
    shiftId_three (fun _ => earlyExit_literal _ _ nofun)
      (fun _ _ _ _ => earlyExit_literal _ _ fun _ => putDibits_bit4 _ _ _ _) o 1,
    hno, earlyExit_literal 2 s.threeDibits nofun,
    shiftId_fourth (earlyExit_three_of_ne (by decide)), shiftId_fourth (fun _ => earlyExit_literal _ _ nofun)]

/-- The early ID stops the loop at position 3 and resolves to the expected ID (R90 (a)). -/
theorem shiftId_three_early {o : Bit} {s : State} (h : s.valueAt 0 6 = 0x1E) :
    shiftId 3 o 4 0 0 s = (0x78, s.threePulses o) := by
  have hid := s.threeDibits_eq_iff.mpr h
  rw [shiftId_three (earlyExit_three_of_ne (by decide)) (fun _ _ _ _ => earlyExit_three_of_ne (by decide) _) o 1,
    if_pos ((earlyExit_three 2 _).mpr ⟨rfl, hid⟩), hid, (by decide : earlyId 0x1E = 0x78)]

/-- The three dibits of a sub-read, after its cleared buffer and the falling I/O line (R89 step 1). -/
theorem State.threePulses_opened (s : State) (o : Bit) :
    (pinWrite .io false (clearScancodes s)).threePulses o = { s.consumed 6 with
      kbd := { s.kbd with buf := Vector.replicate 16 0, len := 0 }
      pins := { s.pins with clkOut := .driven true, ioOut := .driven o }
      trace := s.trace ++ [.write .io false] ++ s.dibitEvents 0 ++
        (if o = true then [Event.write .io true] else []) ++ s.dibitEvents 2 ++ s.dibitEvents 4 } := by
  simp only [State.threePulses, pinWrite_eq, clearScancodes_eq, State.ran_ran, State.ran_dibitEvents, State.ran_pins,
    State.ran_kbd, State.ran_rumble]
  cases o <;> simp [State.ran]

/-- Settles O42: the two sub-reads differ in the ID loop alone. -/
theorem earlyExitAtPositionThree : Obligations.EarlyExitAtPositionThree := by
  intro o s
  have hvalue : (pinWrite .io false (clearScancodes s)).valueAt 0 6 = s.valueAt 0 6 := State.valueAt_congr rfl rfl 0 6
  rw [← hvalue]
  refine ⟨fun h => ?early, fun h => ?full⟩
  case early => simp only [subread, shiftId_three_early h, afterId_eq, idAccepted_expected, State.threePulses_opened]
  case full => simp only [subread, shiftId_three_full h, kbdEarlyAfter]

end Sys2Proof.Machine
end

section
/-! The read cycle and the two operations that make it (R78 to R80): what the bits of the word say, the rumble frames of the
cycle, and how START and POLL end. -/

namespace Sys2Proof.Machine

/-! ## The read cycle -/

/-- Settles O43: the machine's cycle is the one of the frame formats. -/
theorem readCycleFollowsTheFrameFormats : Obligations.ReadCycleFollowsTheFrameFormats := exec_read

theorem State.readDone_trace (s : State) : s.readDone.trace = s.trace ++ s.readTrace := rfl

theorem State.readWord_of_connected {s : State} (h : ¬ s.readsDisconnected = true) : s.readWord = ~~~s.rawWord := if_neg h

/-- Settles O44: `r` is the raw word, and the sub-read's events end the trace. -/
theorem dataWordIsShiftedLeastSignificantFirst : Obligations.DataWordIsShiftedLeastSignificantFirst := by
  intro s
  refine ⟨s.readDone, s.rawWord, s.subreadTrace false (1 + s.frameLength), exec_read s, ?trace, s.rawWord_getLsbD, ?word⟩
  case trace =>
    rw [State.readDone_trace, State.readTrace]
    simp only [List.append_assoc]
    rfl
  case word =>
    by_cases h : s.readsDisconnected = true
    · exact .inr ⟨congrArg Ret.word (s.readWord_eq_zero_iff.mpr h), h⟩
    · exact .inl (congrArg Ret.word (State.readWord_of_connected h))

theorem State.readDone_ret_eq_zero_iff (s : State) : s.readDone.ret = .word 0 ↔ s.readsDisconnected = true :=
  Iff.trans (Iff.of_eq (Ret.word.injEq s.readWord 0)) s.readWord_eq_zero_iff

/-- Settles O45: after a short frame the upper half was never sampled, after a long one bit 15 was low. -/
theorem computedWordIsNeverZero : Obligations.ComputedWordIsNeverZero := by
  intro s
  refine ⟨s.readDone, ~~~s.rawWord, exec_read s, rfl, fun h16 i hi hlt => ?short, fun h16 => ?long,
    s.not_rawWord_ne_zero, s.readDone_ret_eq_zero_iff, fun h => ?connected⟩
  case short => rw [s.not_rawWord_getLsbD i hlt, if_pos ⟨h16, hi⟩]
  case long =>
    rw [s.not_rawWord_getLsbD 15 (by decide), if_neg (by omega), h16]
    rfl
  case connected => exact congrArg Ret.word (State.readWord_of_connected (ne_true_of_eq_false h))

/-- Settles O47: steps 6 to 9 of `read` are the row of its word, on the state the bus part leaves. -/
theorem readEndsInTheClassificationRow : Obligations.ReadEndsInTheClassificationRow := by
  intro s
  refine ⟨_, _, rfl, rfl, ?_⟩
  rw [exec, execRead, readCycle_steps, finishRead_decode, State.ran]
  simp only [Nat.add_assoc]
  rfl

/-- `m` times round the ring of 16 is the frame `m` times (R38). -/
theorem map_range_mod_sixteen (f : Nat → Bit) (m : Nat) :
    ((List.range (16 * m)).map fun i => f (15 - i % 16)) =
      (List.replicate m ((List.range 16).map fun i => f (15 - i))).flatten := by
  induction m with
  | zero => rfl
  | succ m ih =>
    rw [Nat.mul_succ, List.range_add, List.map_append, ih, List.map_map, List.replicate_succ', List.flatten_append,
      List.flatten_singleton]
    congr 1
    refine List.map_congr_left fun i hi => ?_
    have h : (16 * m + i) % 16 = i := by
      have := List.mem_range.mp hi
      omega
    simp only [Function.comp_apply, h]

/-- The number of 16-bit frames in a data word (R36). -/
theorem State.frameLength_eq (s : State) : s.frameLength = 16 * (if s.answerAt 16 = true then 1 else 2) := by
  unfold State.frameLength
  split <;> rfl

/-- An active channel at cursor 15 sends whole frames in a data word (R38). -/
theorem State.ioLevels_dataWord {s : State} (hactive : s.rumble.active = true) (hcursor : s.rumble.cursor = 15) :
    ioLevels (s.sampleTrace 1 s.frameLength) =
      (List.replicate (if s.answerAt 16 = true then 1 else 2)
        ((List.range 16).map fun i => s.rumble.frame.getLsbD (15 - i))).flatten := by
  rw [State.ioLevels_sampleTrace, if_pos hactive, hcursor, s.frameLength_eq, ← map_range_mod_sixteen]
  simp only [cursor_from_fifteen]

/-- Settles O48: of the parts of the trace only the samples and the sub-read write the I/O line. -/
theorem readCycleSendsWholeRumbleFrames : Obligations.ReadCycleSendsWholeRumbleFrames := by
  intro s hactive hcursor
  refine ⟨s.readDone, exec_read s, rfl, ?_⟩
  rw [State.readDone_trace, List.drop_left, State.readTrace, ioLevels_append, ioLevels_append, ioLevels_append,
    State.ioLevels_dataWord hactive hcursor, State.ioLevels_subreadTrace]
  simp

/-! ## START and POLL -/

/-- Settles O13: START is re-detection, whose read begins with no device tracked. -/
theorem startIsOneReadCycleThenDefaults : Obligations.StartIsOneReadCycleThenDefaults := by
  intro s hrunning
  refine ⟨_, exec_read _, ?_⟩
  rw [execStart_running s hrunning, redetect_eq]
  rfl

/-- POLL of a tracked device whose read returned a word (R79). -/
theorem execPoll_connected {s : State} (hrunning : s.phase = .running) (hdevice : s.devType ≠ .none)
    (hword : s.readWord ≠ 0) :
    exec .poll s = .next (demuxByType s.readWord { s.readDone with trace := s.readTrace, ret := .none }) := by
  rw [execPoll_tracked s hrunning hdevice, if_neg hword]

/-- POLL of a tracked device whose read returned 0 (R79, R108). -/
theorem execPoll_disconnected {s : State} (hrunning : s.phase = .running) (hdevice : s.devType ≠ .none)
    (hword : s.readWord = 0) :
    exec .poll s = .next (redetect { s.readDone with trace := s.readTrace, ret := .none }) := by
  rw [execPoll_tracked s hrunning hdevice, if_pos hword]

/-- The read of a host operation begins with an empty trace (R42). -/
theorem exec_read_beginOp (s : State) : exec .read s.beginOp = .next { s.readDone with trace := s.readTrace } := by
  rw [exec_read, State.beginOp_readDone]

/-- Settles O15: the type after the read selects the demultiplexer. -/
theorem pollReadsThenDemultiplexes : Obligations.PollReadsThenDemultiplexes := by
  intro s hrunning hdevice
  refine ⟨_, s.readWord, exec_read_beginOp s, rfl, fun hword => ?_⟩
  rw [execPoll_connected hrunning hdevice hword]
  refine ⟨fun ht => ?controller, fun ht => ?nes, fun ht => ?mouse, fun ht => ?other⟩
  case controller => exact congrArg Host.Outcome.next (demuxByType_controller _ _ ht)
  case nes => exact congrArg Host.Outcome.next (demuxByType_nes _ _ ht)
  case mouse => exact congrArg Host.Outcome.next (demuxByType_mouse _ _ ht)
  case other =>
    obtain ht | ht := ht
    · exact congrArg Host.Outcome.next (demuxByType_keyboard _ _ ht)
    · exact congrArg Host.Outcome.next (demuxByType_none _ _ ht)

/-- Settles O16: re-detection goes on after the events of the read. -/
theorem pollRedetectsInTheSameCall : Obligations.PollRedetectsInTheSameCall := by
  intro s t hrunning hdevice hread hret
  obtain rfl : { s.readDone with trace := s.readTrace } = t := by
    have h := (exec_read_beginOp s).symm.trans hread
    injection h
  have hword : s.readWord = 0 := Ret.word.inj hret
  refine ⟨_, execStart_running _ hrunning, ?_⟩
  rw [execPoll_disconnected hrunning hdevice hword, ← redetect_after]
  simp only [State.beginOp, List.append_nil]

/-- Settles O17: after INIT and BEGIN no device is tracked, so POLL is START, and re-detection keeps the phase. -/
theorem bringUpCompletes : Obligations.BringUpCompletes := by
  intro s
  obtain ⟨a, hinit, hdevice⟩ : ∃ a, exec .init s = .next a ∧ a.devType = .none := ⟨_, exec_init s, rfl⟩
  obtain ⟨b, hbegin, hrunning, hkept⟩ : ∃ b, exec .begin a = .next b ∧ b.phase = .running ∧ b.devType = a.devType :=
    ⟨_, exec_begin a, rfl, rfl⟩
  have hstart := execStart_running b hrunning
  have hpoll := (pollWithoutADeviceIsStart b (hkept.trans hdevice)).trans hstart
  exact ⟨a, b, _, hinit, hbegin, hpoll, hstart, (redetect_phase b.beginOp).trans hrunning⟩

end Sys2Proof.Machine
end

section
/-! Two shapes of argument the invariants share: a run from a state that meets an invariant, and START and POLL as read cycles
between writes of the device type, the buttons and the coordinates. -/

namespace Sys2Proof.Machine

/-- What every step keeps, every run keeps. -/
theorem run_keeps {M : Host.Core} {P : M.State → Prop} (hstep : ∀ s t, P s → M.step s = .next t → P t) (n : Nat)
    {s t : M.State} (hs : P s) (h : M.run n s = .next t) : P t := by
  induction n generalizing s with
  | zero =>
    cases h
    exact hs
  | succ n ih =>
    rw [Host.Core.run] at h
    split at h
    case h_1 u hu => exact ih (hstep s u hs hu) h
    case h_2 | h_3 => cases h

/-- A property kept by a read cycle, and by writing the registers START and the demultiplexers write (R78, R84 to R86). -/
structure CycleInvariant (P : State → Prop) : Prop where
  read : ∀ s q, P s → P { s.readDone with ret := q }
  write : ∀ s t p x y, P s → P { s with devType := t, pad := p, mouse := { s.mouse with x := x, y := y } }

theorem CycleInvariant.redetect {P : State → Prop} (hP : CycleInvariant P) {s : State} (hs : P s) : P (redetect s) := by
  have hread : P { (setDevice .none s).readDone with ret := s.ret } := hP.read _ _ (hP.write s _ _ _ _ hs)
  rw [redetect_eq]
  simp only
  split
  · exact hread
  · exact hP.write _ _ _ _ _ hread

theorem CycleInvariant.demuxByType {P : State → Prop} (hP : CycleInvariant P) (w : DataWord) {s : State} (hs : P s) :
    P (demuxByType w s) := by
  unfold Machine.demuxByType demuxAs
  split
  case h_1 | h_2 | h_3 => exact hP.write s _ _ _ _ hs
  case h_4 | h_5 => exact hs

theorem CycleInvariant.pollCycle {P : State → Prop} (hP : CycleInvariant P) {s : State} (hs : P s) : P (pollCycle s) := by
  have hread : P (readCycle s).2 := by
    rw [readCycle_eq]
    exact hP.read s _ hs
  unfold Machine.pollCycle
  split
  · exact hP.redetect hs
  · simp only
    split
    · exact hP.redetect hread
    · exact hP.demuxByType _ hread

/-- START and POLL answer a next state only while Running, and then it is the end of their body (R77). -/
theorem whenRunning_next {body : State → State} {s t : State} (h : whenRunning body s = .next t) :
    s.phase = .running ∧ t = body s.beginOp := by
  unfold whenRunning at h
  split at h
  case isTrue hrunning =>
    cases h
    exact ⟨hrunning, rfl⟩
  case isFalse => cases h

theorem exec_start_next {s t : State} (h : exec .start s = .next t) : t = redetect s.beginOp := (whenRunning_next h).2

theorem exec_poll_next {s t : State} (h : exec .poll s = .next t) : t = pollCycle s.beginOp := (whenRunning_next h).2

/-- START and POLL keep a cycle invariant. -/
theorem CycleInvariant.startOrPoll {P : State → Prop} (hP : CycleInvariant P) {i : Instr} (hi : i = .start ∨ i = .poll)
    {s t : State} (hs : P s.beginOp) (h : exec i s = .next t) : P t := by
  obtain rfl | rfl := hi
  · rw [exec_start_next h]
    exact hP.redetect hs
  · rw [exec_poll_next h]
    exact hP.pollCycle hs

end Sys2Proof.Machine
end

section
/-! The invariant of a safe state: it holds at reset (R28), every host row keeps it, and the decoder answers nothing else to a
host command. -/

namespace Sys2Proof.Machine

/-- The invariant looks at the inbox, RumbleState, the speed state, the buffer with its length, the phase and the pins. -/
theorem SafeState.congr {s t : State} (h : SafeState s) (hinbox : t.inbox = s.inbox := by rfl)
    (hrumble : t.rumble = s.rumble := by rfl) (hspeed : t.mouse.speed = s.mouse.speed := by rfl)
    (hfails : t.mouse.fails = s.mouse.fails := by rfl) (hbuf : t.kbd.buf = s.kbd.buf := by rfl)
    (hlen : t.kbd.len = s.kbd.len := by rfl) (hphase : t.phase = s.phase := by rfl)
    (hpins : t.pins = s.pins := by rfl) : SafeState t := by
  obtain ⟨hissued, hframe, hcursor, hspeed3, hbound, hbeyond, hconfigured⟩ := h
  constructor
  all_goals simp only [hinbox, hrumble, hspeed, hfails, hbuf, hlen, hphase, hpins]
  all_goals assumption

/-- Settles O49: field by field. -/
theorem resetIsSafe : Obligations.ResetIsSafe where
  hostIssued := nofun
  rumbleFrame := rfl
  rumbleCursor := rfl
  mouseSpeed := by decide
  mouseFails := Nat.zero_le _
  scancodesBeyond i _ := by simp [State.reset, KeyboardState.reset]
  pinsConfigured := nofun

/-! ## A read cycle -/

theorem speedOf_ne_three (f : BitVec 2) : speedOf f ≠ 3 := clampSpeed_ne f

theorem State.readMouse_speed_ne_three {s : State} (h : s.mouse.speed ≠ 3) : s.readMouse.speed ≠ 3 := by
  unfold State.readMouse
  split_ifs
  · exact (by decide : (0 : BitVec 2) ≠ 3)
  · exact speedOf_ne_three _
  · exact h

theorem MouseState.afterSpeed_fails_le {m : MouseState} (h : m.fails ≤ Config.mouseFailThreshold) (f : BitVec 2) :
    (m.afterSpeed f).fails ≤ Config.mouseFailThreshold := by
  obtain hkept | ⟨-, hbound⟩ := m.afterSpeed_fails_cases f
  · rw [hkept]
    exact h
  · exact hbound

theorem State.readMouse_fails_le {s : State} (h : s.mouse.fails ≤ Config.mouseFailThreshold) :
    s.readMouse.fails ≤ Config.mouseFailThreshold := by
  unfold State.readMouse
  split_ifs
  · exact Nat.zero_le _
  · exact MouseState.afterSpeed_fails_le h _
  · exact h

theorem State.packetAt_len (s : State) (o : Bit) (off : Nat) : (s.packetAt o off).len.toNat = s.scancodesAt o off := by
  have h := s.scancodesAt_le o off
  exact Nat.mod_eq_of_lt (by omega)

/-- The sub-read leaves the buffer 0 beyond its length (R89 (i), D12). -/
theorem State.packetAt_beyond {s : State} {o : Bit} {off : Nat} {i : Fin 16} (h : (s.packetAt o off).len.toNat ≤ i.val) :
    (s.packetAt o off).buf[i] = 0 := by
  rw [State.packetAt_len] at h
  simp only [State.packetAt, Fin.getElem_fin, Vector.getElem_ofFn]
  exact if_neg (by omega)

theorem cycleInvariant_safeState : CycleInvariant SafeState where
  read s q h :=
    { hostIssued := h.hostIssued
      rumbleFrame := h.rumbleFrame
      rumbleCursor := h.rumbleCursor
      mouseSpeed := State.readMouse_speed_ne_three h.mouseSpeed
      mouseFails := State.readMouse_fails_le h.mouseFails
      scancodesBeyond := fun _ => State.packetAt_beyond
      pinsConfigured := h.pinsConfigured }
  write s _ _ _ _ h := h.congr

/-! ## The host rows -/

theorem safeState_init {s t : State} (hs : SafeState s) (h : exec .init s = .next t) : SafeState t := by
  cases h
  exact { resetIsSafe with hostIssued := hs.hostIssued, pinsConfigured := nofun }

theorem safeState_begin {s t : State} (hs : SafeState s) (h : exec .begin s = .next t) : SafeState t := by
  rw [exec_begin] at h
  cases h
  exact ⟨hs.hostIssued, hs.rumbleFrame, hs.rumbleCursor, hs.mouseSpeed, hs.mouseFails, hs.scancodesBeyond,
    fun _ => ⟨rfl, rfl, rfl, rfl, rfl⟩⟩

/-- The frame loaded is the frame of the intensities loaded, from cursor 15 (R94). -/
theorem RumbleState.loaded_rests {r : RumbleState}
    (h : r.frame = 0x7200 ||| (r.right.setWidth 16 <<< 4) ||| r.left.setWidth 16 ∧ r.cursor = 15) (right left : BitVec 4) :
    (r.loaded right left).frame =
      0x7200 ||| ((r.loaded right left).right.setWidth 16 <<< 4) ||| (r.loaded right left).left.setWidth 16 ∧
    (r.loaded right left).cursor = 15 := by
  unfold RumbleState.loaded
  split
  · exact h
  · exact ⟨by rw [← mkRumbleFrame_eq_add, mkRumbleFrame_eq], rfl⟩

theorem safeState_setRumble {left right : Byte} {s t : State} (hs : SafeState s)
    (h : exec (.setRumble left right) s = .next t) : SafeState t := by
  rw [exec_setRumble] at h
  cases h
  obtain ⟨hframe, hcursor⟩ :=
    RumbleState.loaded_rests ⟨hs.rumbleFrame, hs.rumbleCursor⟩ (scaleRumble right) (scaleRumble left)
  exact ⟨hs.hostIssued, hframe, hcursor, hs.mouseSpeed, hs.mouseFails, hs.scancodesBeyond, hs.pinsConfigured⟩

theorem safeState_setCapsLockLed {flag : Bit} {s t : State} (hs : SafeState s)
    (h : exec (.setCapsLockLed flag) s = .next t) : SafeState t := by
  cases h
  exact hs.congr

/-- Every host row keeps a safe state safe. -/
theorem safeState_exec {i : Instr} (hi : isHostRow i = true) {s t : State} (hs : SafeState s) (h : exec i s = .next t) :
    SafeState t := by
  cases i
  case init => exact safeState_init hs h
  case begin => exact safeState_begin hs h
  case start => exact cycleInvariant_safeState.startOrPoll (.inl rfl) hs.congr h
  case poll => exact cycleInvariant_safeState.startOrPoll (.inr rfl) hs.congr h
  case setCapsLockLed => exact safeState_setCapsLockLed hs h
  case setRumble => exact safeState_setRumble hs h
  case reserved67 | reserved8F => cases h
  all_goals cases hi

/-- Settles O50: what is fetched in a safe state is a host command, so a host row runs. -/
theorem stepKeepsSafeState : Obligations.StepKeepsSafeState := by
  intro s t hs h
  cases hinbox : s.inbox with
  | nil =>
    rw [step_idle hinbox] at h
    cases h
    exact hs
  | cons f rest =>
    have hissued : ∀ g ∈ f :: rest, isCommandFrame g = true := by
      rw [← hinbox]
      exact hs.hostIssued
    have htaken : SafeState { s with inbox := rest } :=
      ⟨fun g hg => hissued g (List.mem_cons_of_mem f hg), hs.rumbleFrame, hs.rumbleCursor, hs.mouseSpeed, hs.mouseFails,
        hs.scancodesBeyond, hs.pinsConfigured⟩
    cases f with
    | command cmd =>
      rw [step_decoded hinbox rfl] at h
      exact safeState_exec (isRow_operation _ _ _).2.2 htaken h
    | dataWord | demux | mouseSpeed | kbdId | kbdPartial | kbdPacket | rumble =>
      exact absurd (hissued _ List.mem_cons_self) Bool.false_ne_true

theorem safeState_issued (commands : List Command) (answers : List Bit) :
    SafeState { State.reset with inbox := commands.map Frame.command, answers := answers } := by
  refine { resetIsSafe with hostIssued := fun f hf => ?_ }
  obtain ⟨_, -, rfl⟩ := List.mem_map.mp hf
  rfl

/-- The frame of a safe state in numbers (R22 (a)). -/
theorem SafeState.rumbleFrame_toNat {s : State} (h : SafeState s) :
    s.rumble.frame.toNat = 0x7200 + s.rumble.right.toNat * 16 + s.rumble.left.toNat := by
  have hr := s.rumble.right.isLt
  have hl := s.rumble.left.isLt
  rw [h.rumbleFrame, ← mkRumbleFrame_eq, mkRumbleFrame_eq_add, BitVec.toNat_ofNat]
  omega

/-- Settles O51: a run from a safe state is safe throughout. -/
theorem rumbleRestsAtFifteenInEveryReachableState : Obligations.RumbleRestsAtFifteenInEveryReachableState := by
  intro commands answers n t h
  have ht : SafeState t := run_keeps (M := Sys2Proof.core) (P := SafeState) stepKeepsSafeState n
    (safeState_issued commands answers) h
  exact ⟨ht.rumbleFrame_toNat, ht.rumbleCursor⟩

end Sys2Proof.Machine
end

section
/-! What every instruction leaves of RumbleState (R96), and what the host rows write and how long their traces are (R20, R24,
R99). -/

namespace Sys2Proof.Machine

/-- Two answers of one instruction are one. -/
theorem eq_of_next {i : Instr} {s t u : State} (hu : exec i s = .next u) (h : exec i s = .next t) : t = u :=
  Host.Outcome.next.inj (h.symm.trans hu)

/-! ## The rumble setting (R96) -/

/-- The intensities, the frame and the active flag are the same: only the cursor may differ. -/
def RumbleState.SameSetting (r q : RumbleState) : Prop :=
  q.left = r.left ∧ q.right = r.right ∧ q.frame = r.frame ∧ q.active = r.active

theorem sameSetting_of_rumble_eq {i : Instr} {s t u : State} (h : exec i s = .next t) (hu : exec i s = .next u)
    (hrumble : u.rumble = s.rumble) : s.rumble.SameSetting t.rumble := by
  rw [eq_of_next hu h, hrumble]
  exact ⟨rfl, rfl, rfl, rfl⟩

theorem State.headerDone_rumble (s : State) (o : Bit) (id : Byte) (count : BitVec 4) :
    (s.headerDone o id count).rumble = s.rumble := by
  rw [State.headerDone_eq, State.ran_rumble]

theorem State.idDone_rumble (s : State) (o : Bit) (id : Byte) : (s.idDone o id).rumble = s.rumble := by
  rw [State.idDone_eq, State.ran_rumble]

theorem State.subreadDone_rumble (s : State) (o : Bit) : (s.subreadDone o).rumble = s.rumble := by
  rw [State.subreadDone_eq, State.ran_rumble]

theorem exec_pinRead (p : InPin) (s : State) : exec (.pinRead p) s = .next { s.consumed 1 with
    trace := s.trace ++ [.read p (s.answerAt 0)], ret := .bit (s.answerAt 0) } := by
  rw [exec, execPinRead, pinRead_eq]
  rfl

theorem cycleInvariant_rumble (r : RumbleState) : CycleInvariant fun s => s.rumble = r where
  read _ _ h := h
  write _ _ _ _ _ h := h

theorem exec_startOrPoll_rumble {i : Instr} (hi : i = .start ∨ i = .poll) {s t : State} (h : exec i s = .next t) :
    t.rumble = s.rumble :=
  (cycleInvariant_rumble s.rumble).startOrPoll hi rfl h

/-- Only INIT, SET_RUMBLE and its row change the setting: `shift_bit` steps the cursor, and nothing else writes RumbleState. -/
theorem exec_sameSetting {i : Instr} (hinit : i ≠ .init) (hset : ∀ l r, i ≠ .setRumble l r)
    (hrow : ∀ r l, i ≠ .rumbleFrame r l) {s t : State} (h : exec i s = .next t) : s.rumble.SameSetting t.rumble := by
  cases i
  case init => exact absurd rfl hinit
  case setRumble left right => exact absurd rfl (hset left right)
  case rumbleFrame right left => exact absurd rfl (hrow right left)
  case reserved67 | reserved8F => cases h
  case start => exact sameSetting_of_rumble_eq h h (exec_startOrPoll_rumble (.inl rfl) h)
  case poll => exact sameSetting_of_rumble_eq h h (exec_startOrPoll_rumble (.inr rfl) h)
  case begin => exact sameSetting_of_rumble_eq h (exec_begin s) rfl
  case kbdIdMatch => exact sameSetting_of_rumble_eq h (exec_kbdIdMatch s) (s.idDone_rumble false 0x78)
  case kbdIdHeal => exact sameSetting_of_rumble_eq h (exec_kbdIdHeal s) (s.idDone_rumble false 0x79)
  case kbdIdEarly => exact sameSetting_of_rumble_eq h (exec_kbdIdEarly s) (s.idDone_rumble false 0x78)
  case kbdPacket id count =>
    exact sameSetting_of_rumble_eq h (exec_kbdPacket id count s) (s.headerDone_rumble false id count)
  case latchAndPrime => exact sameSetting_of_rumble_eq h (exec_latchAndPrime s) rfl
  case shiftDibit => exact sameSetting_of_rumble_eq h (exec_shiftDibit s) rfl
  case read => exact sameSetting_of_rumble_eq h (exec_read s) rfl
  case kbdSubread idOnly => exact sameSetting_of_rumble_eq h (exec_kbdSubread idOnly s) (s.subreadDone_rumble idOnly)
  case pinRead pin => exact sameSetting_of_rumble_eq h (exec_pinRead pin s) rfl
  case shiftBit pin =>
    rw [eq_of_next (exec_shiftBit pin s) h]
    exact ⟨rfl, rfl, rfl, rfl⟩
  all_goals exact sameSetting_of_rumble_eq h rfl rfl

theorem RumbleState.loaded_active {r : RumbleState} (h : r.active = true) (right left : BitVec 4) :
    (r.loaded right left).active = true := by
  unfold RumbleState.loaded
  split
  · exact h
  · rfl

/-- Settles O52: loading a setting activates the channel, and nothing else but INIT writes it. -/
theorem onlyInitDeactivatesRumble : Obligations.OnlyInitDeactivatesRumble := by
  intro i s t h
  refine ⟨fun hactive hinit => ?_, fun hinit hset hrow => exec_sameSetting hinit hset hrow h⟩
  by_cases hset : ∃ l r, i = .setRumble l r
  case pos =>
    obtain ⟨left, right, rfl⟩ := hset
    rw [eq_of_next (exec_setRumble left right s) h]
    exact RumbleState.loaded_active hactive _ _
  by_cases hrow : ∃ r l, i = .rumbleFrame r l
  case pos =>
    obtain ⟨right, left, rfl⟩ := hrow
    rw [eq_of_next (exec_rumbleFrame right left s) h]
    exact RumbleState.loaded_active hactive _ _
  obtain ⟨-, -, -, hkept⟩ :=
    exec_sameSetting hinit (fun l r e => hset ⟨l, r, e⟩) (fun r l e => hrow ⟨r, l, e⟩) h
  exact hkept.trans hactive

/-! ## The frames of the host rows -/

theorem cycleInvariant_phase (p : Phase) : CycleInvariant fun s => s.phase = p where
  read _ _ h := h
  write _ _ _ _ _ h := h

/-- The sub-read writes all of KeyboardState but the caps-lock flag (R89). -/
theorem State.packetAt_capsLock (s : State) (o : Bit) (off : Nat) : (s.packetAt o off).capsLock = s.kbd.capsLock := by
  rw [State.packetAt]

theorem cycleInvariant_capsLock (c : Bit) : CycleInvariant fun s => s.kbd.capsLock = c where
  read s _ h := (s.packetAt_capsLock false (1 + s.frameLength)).trans h
  write _ _ _ _ _ h := h

/-- What START and POLL leave of the registers that other host rows write. -/
theorem exec_startOrPoll_frame {i : Instr} (hi : i = .start ∨ i = .poll) {s t : State} (h : exec i s = .next t) :
    t.kbd.capsLock = s.kbd.capsLock ∧ t.phase = s.phase ∧ t.rumble = s.rumble :=
  ⟨(cycleInvariant_capsLock _).startOrPoll hi rfl h, (cycleInvariant_phase _).startOrPoll hi rfl h,
    exec_startOrPoll_rumble hi h⟩

/-- Settles O53: row by row. -/
theorem hostOperationsWriteOnlyTheirState : Obligations.HostOperationsWriteOnlyTheirState := by
  intro i s t hi h
  cases i
  case init =>
    cases h
    exact ⟨fun n => absurd rfl n, fun n => absurd rfl n, fun n => absurd rfl n, fun n => absurd rfl n,
      fun _ _ _ => ⟨rfl, rfl⟩⟩
  case begin =>
    rw [eq_of_next (exec_begin s) h]
    exact ⟨fun _ _ => rfl, fun _ n => absurd rfl n, fun _ _ _ => ⟨rfl, rfl, rfl, rfl, rfl, rfl⟩, fun _ _ => rfl,
      fun n => absurd rfl n⟩
  case start =>
    obtain ⟨hcaps, hphase, hrumble⟩ := exec_startOrPoll_frame (.inl rfl) h
    exact ⟨fun _ _ => hcaps, fun _ _ => hphase, fun _ n => absurd rfl n, fun _ _ => hrumble, fun _ n => absurd rfl n⟩
  case poll =>
    obtain ⟨hcaps, hphase, hrumble⟩ := exec_startOrPoll_frame (.inr rfl) h
    exact ⟨fun _ _ => hcaps, fun _ _ => hphase, fun _ _ n => absurd rfl n, fun _ _ => hrumble, fun _ _ n => absurd rfl n⟩
  case setCapsLockLed flag =>
    cases h
    exact ⟨fun _ n => absurd rfl (n flag), fun _ _ => rfl, fun _ _ _ => ⟨rfl, rfl, rfl, rfl, rfl, rfl⟩, fun _ _ => rfl,
      fun _ _ _ => ⟨rfl, rfl⟩⟩
  case setRumble left right =>
    rw [eq_of_next (exec_setRumble left right s) h]
    exact ⟨fun _ _ => rfl, fun _ _ => rfl, fun _ _ _ => ⟨rfl, rfl, rfl, rfl, rfl, rfl⟩,
      fun _ n => absurd rfl (n left right), fun _ _ _ => ⟨rfl, rfl⟩⟩
  case reserved67 | reserved8F => cases h
  all_goals cases hi

/-! ## The pins at rest (R24) -/

theorem PinState.atRest_atRest (p : PinState) : p.atRest.atRest = p.atRest := rfl

theorem redetect_pins (s : State) : (redetect s).pins = s.pins.atRest := by
  rw [redetect_eq]
  simp only
  split <;> rfl

theorem demuxByType_pins (w : DataWord) (s : State) : (demuxByType w s).pins = s.pins := by
  unfold demuxByType demuxAs
  split <;> rfl

theorem readCycle_pins (s : State) : (readCycle s).2.pins = s.pins.atRest := by
  rw [readCycle_eq]
  rfl

theorem pollCycle_pins (s : State) : (pollCycle s).pins = s.pins.atRest := by
  unfold pollCycle
  split
  · exact redetect_pins s
  · simp only
    split
    · rw [redetect_pins, readCycle_pins, PinState.atRest_atRest]
    · rw [demuxByType_pins, readCycle_pins]

/-- Settles O54: one read cycle or two leave the pins at rest. -/
theorem readCyclesLeaveThePinsAtRest : Obligations.ReadCyclesLeaveThePinsAtRest := by
  rintro i s (rfl | rfl) hrunning
  · exact ⟨_, execStart_running s hrunning, redetect_pins _⟩
  · exact ⟨_, execPoll_running s hrunning, pollCycle_pins _⟩

/-! ## The lengths of the traces (R99) -/

theorem readCycle_trace (s : State) : (readCycle s).2.trace = s.trace ++ s.readTrace := by
  rw [readCycle_eq]
  rfl

theorem redetect_trace (s : State) : (redetect s).trace = s.trace ++ (setDevice .none s).readTrace := by
  rw [redetect_eq]
  simp only
  split <;> rfl

theorem demuxByType_trace (w : DataWord) (s : State) : (demuxByType w s).trace = s.trace := by
  unfold demuxByType demuxAs
  split <;> rfl

theorem redetect_trace_length_le (s : State) : (redetect s).trace.length ≤ s.trace.length + 600 := by
  have h := (setDevice .none s).readTrace_length_le
  rw [redetect_trace, List.length_append]
  omega

theorem readCycle_trace_length_le (s : State) : (readCycle s).2.trace.length ≤ s.trace.length + 600 := by
  have h := s.readTrace_length_le
  rw [readCycle_trace, List.length_append]
  omega

/-- POLL makes at most two read cycles (R79). -/
theorem pollCycle_trace_length_le (s : State) : (pollCycle s).trace.length ≤ s.trace.length + 1200 := by
  have hread := readCycle_trace_length_le s
  unfold pollCycle
  split
  · have h := redetect_trace_length_le s
    omega
  · simp only
    split
    · have h := redetect_trace_length_le (readCycle s).2
      omega
    · rw [demuxByType_trace]
      omega

/-- Settles O55: START makes one read cycle, POLL at most two, and the other rows write out their trace. -/
theorem tracesAreBounded : Obligations.TracesAreBounded := by
  intro i s t h
  refine ⟨fun hi => ?register, fun hi => ?begin, fun hi => ?start, fun hi => ?poll⟩
  case register =>
    obtain rfl | ⟨flag, rfl⟩ | ⟨left, right, rfl⟩ := hi
    · rw [eq_of_next (exec_init s) h]
      rfl
    · rw [eq_of_next (exec_setCapsLockLed flag s) h]
    · rw [eq_of_next (exec_setRumble left right s) h]
  case begin =>
    subst hi
    rw [eq_of_next (exec_begin s) h]
    rfl
  case start =>
    subst hi
    rw [exec_start_next h]
    exact redetect_trace_length_le s.beginOp
  case poll =>
    subst hi
    rw [exec_poll_next h]
    exact pollCycle_trace_length_le s.beginOp

/-! ## Rumble and decoding (R26, R35, R95) -/

/-- The same state but for RumbleState and the trace. -/
def State.withRumble (s : State) (r : RumbleState) (es : List Event) : State := { s with rumble := r, trace := es }

theorem State.readDone_withRumble (s : State) (r : RumbleState) (es : List Event) :
    ∃ es', (s.withRumble r es).readDone = s.readDone.withRumble r es' :=
  ⟨_, s.readDone_congr es r s.ret⟩

theorem State.readWord_withRumble (s : State) (r : RumbleState) (es : List Event) :
    (s.withRumble r es).readWord = s.readWord := s.readWord_congr es r s.ret

/-- The defaults of START depend on the device type alone (R78). -/
theorem withDefaults_withRumble (t : State) (r : RumbleState) (es : List Event) :
    (if (t.withRumble r es).devType = .none then t.withRumble r es else resetFields (t.withRumble r es)) =
      (if t.devType = .none then t else resetFields t).withRumble r es := by
  by_cases h : t.devType = .none
  · rw [if_pos h]
    exact if_pos h
  · rw [if_neg h]
    exact if_neg h

theorem redetect_withRumble (s : State) (r : RumbleState) (es : List Event) :
    ∃ es', redetect (s.withRumble r es) = (redetect s).withRumble r es' := by
  obtain ⟨es', h⟩ := (setDevice .none s).readDone_withRumble r es
  have hset : setDevice .none (s.withRumble r es) = (setDevice .none s).withRumble r es := rfl
  refine ⟨es', ?_⟩
  rw [redetect_eq, redetect_eq, hset, h]
  exact withDefaults_withRumble { (setDevice .none s).readDone with ret := s.ret } r es'

theorem demuxByType_withRumble (w : DataWord) (s : State) (r : RumbleState) (es : List Event) :
    demuxByType w (s.withRumble r es) = (demuxByType w s).withRumble r es := by
  unfold demuxByType
  change demuxAs s.devType w _ = _
  cases s.devType <;> rfl

theorem readCycle_withRumble (s : State) (r : RumbleState) (es : List Event) :
    ∃ es', readCycle (s.withRumble r es) = ((readCycle s).1, (readCycle s).2.withRumble r es') := by
  obtain ⟨es', h⟩ := s.readDone_withRumble r es
  refine ⟨es', ?_⟩
  rw [readCycle_eq, readCycle_eq, s.readWord_withRumble, h]
  rfl

theorem pollCycle_withRumble (s : State) (r : RumbleState) (es : List Event) :
    ∃ es', pollCycle (s.withRumble r es) = (pollCycle s).withRumble r es' := by
  unfold pollCycle
  change ∃ es', (if s.devType = .none then redetect (s.withRumble r es) else _) = _
  split
  · exact redetect_withRumble s r es
  · obtain ⟨es', hread⟩ := readCycle_withRumble s r es
    simp only [hread]
    split
    · exact redetect_withRumble _ r es'
    · exact ⟨es', demuxByType_withRumble _ _ r es'⟩

theorem exec_start_withRumble {s : State} (h : s.phase = .running) (r : RumbleState) :
    ∃ es, exec .start (s.withRumble r s.trace) = .next ((redetect s.beginOp).withRumble r es) := by
  obtain ⟨es, hes⟩ := redetect_withRumble s.beginOp r []
  exact ⟨es, by rw [execStart_running (s.withRumble r s.trace) h, ← hes]; rfl⟩

theorem exec_poll_withRumble {s : State} (h : s.phase = .running) (r : RumbleState) :
    ∃ es, exec .poll (s.withRumble r s.trace) = .next ((pollCycle s.beginOp).withRumble r es) := by
  obtain ⟨es, hes⟩ := pollCycle_withRumble s.beginOp r []
  exact ⟨es, by rw [execPoll_running (s.withRumble r s.trace) h, ← hes]; rfl⟩

/-- Settles O56: `read` and the bodies of START and POLL, each from the state with the other RumbleState. -/
theorem rumbleDoesNotInfluenceDecoding : Obligations.RumbleDoesNotInfluenceDecoding := by
  rintro i s t r (rfl | rfl | rfl) h
  · obtain ⟨es, hes⟩ := s.readDone_withRumble r s.trace
    rw [eq_of_next (exec_read s) h]
    exact ⟨es, (exec_read (s.withRumble r s.trace)).trans (congrArg Host.Outcome.next hes)⟩
  · obtain ⟨hrunning, rfl⟩ := whenRunning_next h
    exact exec_start_withRumble hrunning r
  · obtain ⟨hrunning, rfl⟩ := whenRunning_next h
    exact exec_poll_withRumble hrunning r

end Sys2Proof.Machine
end

section
/-! End to end (30_encoding.md R52 to R55): a list of answers read as one cycle, and the POLLs of a controller, a keyboard, a
mouse and an empty bus. -/

namespace Sys2Proof.Machine

/-! ## One cycle read off its listed answers -/

/-- What the answers of one read cycle come to: the hint, the raw word, whether the keyboard ID is accepted, the number of
scancodes, and the answers left over (R31, R36, R55). -/
structure ReadsAs (s : State) (hint : Bit) (r : DataWord) (k : Bit) (m : Nat) (rest : List Bit) : Prop where
  hint : s.answerAt 0 = hint
  word : s.rawWord = r
  accepted : idAccepted s.devType (s.valueAt (1 + s.frameLength) 8) = k
  scancodes : s.scancodesAt false (1 + s.frameLength) = m
  rest : s.readDone.answers = rest

theorem State.answerAt_zero_of_cons {s : State} {b : Bit} {l : List Bit} (h : s.answers = b :: l) : s.answerAt 0 = b :=
  State.answerAt_piece (before := []) (piece := [b]) h 0 Nat.zero_lt_one

/-- A 16-bit word: its last bit is high (R36). -/
theorem State.rawWord_short {s : State} {hint : Bit} {r : BitVec 16} {after : List Bit}
    (h : s.answers = [hint] ++ (wireBits 16 r ++ after)) (h15 : r.getLsbD 15 = true) :
    s.frameLength = 16 ∧ s.rawWord = r.setWidth 32 := by
  have h16 : s.answerAt 16 = true := (State.answerAt_wireBits h 15 (by decide)).trans h15
  have hlength : s.frameLength = 16 := if_pos h16
  have hvalue : s.valueAt 1 16 = r := State.valueAt_wireBits (before := [hint]) h
  exact ⟨hlength, by rw [State.rawWord, hlength, hvalue]⟩

/-- A 32-bit word: its bit 15 is low (R36). -/
theorem State.rawWord_long {s : State} {hint : Bit} {r : BitVec 32} {after : List Bit}
    (h : s.answers = [hint] ++ (wireBits 32 r ++ after)) (h15 : r.getLsbD 15 = false) :
    s.frameLength = 32 ∧ s.rawWord = r := by
  have h16 : s.answerAt 16 = false := (State.answerAt_wireBits h 15 (by decide)).trans h15
  have hlength : s.frameLength = 32 := if_neg (ne_true_of_eq_false h16)
  have hvalue : s.valueAt 1 32 = r := State.valueAt_wireBits (before := [hint]) h
  exact ⟨hlength, by rw [State.rawWord, hlength, hvalue, BitVec.setWidth_eq]⟩

theorem State.readDone_answers (s : State) : s.readDone.answers =
    s.answers.drop (1 + s.frameLength + 12 + 8 * s.scancodesAt false (1 + s.frameLength)) := rfl

/-- Both lines high for six pulses are no keyboard (R61). -/
theorem State.noKeyboard_read {s : State} {before rest : List Bit} (h : s.answers = before ++ (noKeyboard ++ rest)) :
    idAccepted s.devType (s.valueAt before.length 8) = false ∧ s.scancodesAt false before.length = 0 := by
  have hid : s.valueAt before.length 8 = 0xFF := State.valueAt_replicate_true (k := 12) (by decide) h
  have hno : idAccepted s.devType (s.valueAt before.length 8) = false := by
    rw [hid]
    exact idAccepted_other _ (by decide) (by decide)
  refine ⟨hno, ?_⟩
  rw [State.scancodesAt, payloadCount, hno]
  rfl

/-- A word and no keyboard. -/
theorem readsAs_noKeyboard {s : State} {hint : Bit} {n : Nat} {v : BitVec n} {r : DataWord} {rest : List Bit}
    (h : s.answers = [hint] ++ (wireBits n v ++ (noKeyboard ++ rest))) (hword : s.frameLength = n ∧ s.rawWord = r) :
    ReadsAs s hint r false 0 rest := by
  obtain ⟨hlength, hraw⟩ := hword
  have hbefore : s.answers = ([hint] ++ wireBits n v) ++ (noKeyboard ++ rest) := by rw [h, List.append_assoc]
  have hat : ([hint] ++ wireBits n v).length = 1 + s.frameLength := by simp [hlength, Nat.add_comm]
  obtain ⟨hno, hcount⟩ := hat ▸ State.noKeyboard_read hbefore
  refine ⟨State.answerAt_zero_of_cons h, hraw, hno, hcount, ?_⟩
  rw [State.readDone_answers, hcount, hbefore, ← List.append_assoc, List.drop_left']
  simp only [List.length_append, List.length_singleton, wireBits_length, noKeyboard_length, hlength]

section
variable {s : State} {hint : Bit} {r : DataWord} {k : Bit} {m : Nat} {rest : List Bit}

theorem ReadsAs.readsDisconnected (h : ReadsAs s hint r k m rest) :
    s.readsDisconnected = isDisconnected k hint (~~~r) := by
  rw [← readsDisconnected_eq, h.accepted, h.hint, h.word]

theorem ReadsAs.readType (h : ReadsAs s hint r k m rest) (hd : isDisconnected k hint (~~~r) = false) :
    s.readType = classifyWord (~~~r) k := by
  rw [State.readType, h.readsDisconnected, hd, h.accepted, h.word, classifyWord_eq]
  rfl

theorem ReadsAs.readWord (h : ReadsAs s hint r k m rest) (hd : isDisconnected k hint (~~~r) = false) :
    s.readWord = ~~~r := by
  rw [State.readWord, h.readsDisconnected, hd, h.word]
  rfl

theorem ReadsAs.readDone_kbd_len (h : ReadsAs s hint r k m rest) : s.readDone.kbd.len = BitVec.ofNat 4 m :=
  congrArg (BitVec.ofNat 4) h.scancodes

theorem ReadsAs.connected (h : ReadsAs s hint r k m rest) (hd : isDisconnected k hint (~~~r) = false) :
    ¬ s.readsDisconnected = true := by
  rw [h.readsDisconnected, hd]
  exact Bool.false_ne_true

/-- A cycle classified otherwise than as a mouse leaves MouseState (R80). -/
theorem ReadsAs.readMouse_kept (h : ReadsAs s hint r k m rest) (hd : isDisconnected k hint (~~~r) = false)
    (ht : s.readType ≠ .mouse) : s.readMouse = s.mouse :=
  (State.readMouse_of_connected (h.connected hd)).trans (if_neg ht)

/-- POLL of a tracked device that answers a word, the answers of its cycle given (R79). -/
theorem ReadsAs.execPoll (h : ReadsAs s hint r k m rest) (hd : isDisconnected k hint (~~~r) = false)
    (hrunning : s.phase = .running) (hdevice : s.devType ≠ .none) :
    exec .poll s = .next (demuxByType (~~~r) { s.readDone with trace := s.readTrace, ret := .none }) := by
  rw [← h.readWord hd]
  refine execPoll_connected hrunning hdevice ?_
  rw [h.readWord hd, ← h.word]
  exact s.not_rawWord_ne_zero

end

theorem isDisconnected_of_keyboard (hint : Bit) (w : DataWord) : isDisconnected true hint w = false := rfl

/-- A word with one of its low 16 bits set is no disconnection (R81). -/
theorem isDisconnected_of_bit {w : DataWord} {i : Nat} (hi : i < 16) (h : w.getLsbD i = true) (k hint : Bit) :
    isDisconnected k hint w = false := by
  have hlow : ¬ lowHalf w = 0 := fun e => by
    rw [(lowHalf_eq_zero_iff w).mp e i hi] at h
    cases h
  rw [isDisconnected, matchesDisconnected, decide_eq_false hlow, Bool.and_false]

/-! ## A controller (R52) -/

/-- The raw word of a controller that holds the given buttons: low is held. -/
def heldWord (held : BitVec 12) : DataWord := (~~~(held.setWidth 16)).setWidth 32

/-- The low half of `w = ~r` is the buttons held. -/
theorem not_heldWord_getLsbD (held : BitVec 12) {i : Nat} (h : i < 16) :
    (~~~(heldWord held)).getLsbD i = held.getLsbD i := by
  have h32 : i < 32 := by omega
  simp [heldWord, h, h32]

theorem matchesController_heldWord (held : BitVec 12) : matchesController (~~~(heldWord held)) = true := by
  refine decide_eq_true (BitVec.eq_of_getLsbD_eq fun i hi => (getLsbD_of_field (lo := 12) rfl i hi).symm.trans ?_)
  rw [not_heldWord_getLsbD held (by omega), BitVec.getLsbD_of_ge _ _ (by omega)]
  exact (getLsbD_of_eq_zero rfl i).symm

/-- Some button held, or a low hint, is no disconnection (R81). -/
theorem isDisconnected_heldWord {hint : Bit} {held : BitVec 12} (h : hint = false ∨ held ≠ 0) :
    isDisconnected false hint (~~~(heldWord held)) = false := by
  obtain rfl | hheld := h
  · rfl
  · obtain ⟨i, hi, hbit⟩ : ∃ i, i < 12 ∧ held.getLsbD i = true := by
      by_contra hnone
      refine hheld (BitVec.eq_of_getLsbD_eq fun i hi => ?_)
      rw [getLsbD_of_eq_zero rfl i]
      exact eq_false_of_ne_true fun hbit => hnone ⟨i, hi, hbit⟩
    exact isDisconnected_of_bit (by omega) ((not_heldWord_getLsbD held (by omega)).trans hbit) _ _

theorem classifyWord_controller {w : DataWord} (h : matchesController w = true) : classifyWord w false = .controller :=
  if_pos h

/-- Settles O57: the cycle of the held buttons is a Controller word, and the demultiplexer copies it. -/
theorem controllerPollReportsTheButtons : Obligations.ControllerPollReportsTheButtons := by
  intro s hint held rest hrunning hdevice hheld hanswers
  have hlist : s.answers = [hint] ++ (wireBits 16 (~~~(held.setWidth 16)) ++ (noKeyboard ++ rest)) := by
    rw [hanswers]
    simp
  have hcycle : ReadsAs s hint (heldWord held) false 0 rest :=
    readsAs_noKeyboard hlist (State.rawWord_short hlist (by simp))
  have hd := isDisconnected_heldWord hheld
  have htype : s.readType = .controller :=
    (hcycle.readType hd).trans (classifyWord_controller (matchesController_heldWord held))
  have hmouse : s.readMouse = s.mouse := hcycle.readMouse_kept hd (by rw [htype]; decide)
  have hpoll := hcycle.execPoll hd hrunning hdevice
  rw [demuxByType_controller _ _ htype] at hpoll
  refine ⟨_, hpoll, htype, hcycle.rest, hmouse, hcycle.readDone_kbd_len, ?_⟩
  simp only [demuxController, not_heldWord_getLsbD held, Nat.reduceLT]

/-! ## A mouse (R54) -/

theorem classifyWord_mouse {w : DataWord} (h : matchesMouse w = true) : classifyWord w false = .mouse := by
  rw [classifyWord, not_matchesController_of_bit15 (bit15_of_matchesMouse h), not_matchesNes_of_matchesMouse h, h]
  rfl

/-- Settles O59: the cycle is a Mouse word, which updates the speed, and the demultiplexer follows. -/
theorem mousePollReportsTheMovement : Obligations.MousePollReportsTheMovement := by
  intro s hint w rest hrunning hdevice hmask hanswers
  have hmouse : matchesMouse w = true := (matchesMouse_iff w).mpr hmask
  have h15 := bit15_of_matchesMouse hmouse
  have hlist : s.answers = [hint] ++ (wireBits 32 (~~~w) ++ (noKeyboard ++ rest)) := by
    rw [hanswers]
    simp
  have hcycle : ReadsAs s hint (~~~w) false 0 rest :=
    readsAs_noKeyboard hlist (State.rawWord_long hlist (by rw [not_wire_getLsbD w (by decide), h15]; rfl))
  have hd : isDisconnected false hint (~~~(~~~w)) = false := by
    rw [BitVec.not_not]
    exact isDisconnected_of_bit (by decide) h15 _ _
  have htype : s.readType = .mouse := by
    rw [hcycle.readType hd, BitVec.not_not, classifyWord_mouse hmouse]
  have hspeed : s.readMouse = s.mouse.afterSpeed (speedField w) := by
    rw [State.readMouse_of_connected (hcycle.connected hd), if_pos htype, hcycle.word, BitVec.not_not, speedField]
  have hpoll := hcycle.execPoll hd hrunning hdevice
  rw [demuxByType_mouse _ _ htype, BitVec.not_not] at hpoll
  refine ⟨_, _, _, exec_mouseSpeedUpdate w s, exec_demuxMouse w _, hpoll, htype, hcycle.rest, ?_, rfl⟩
  rw [← hspeed]
  rfl

/-! ## A bus with nothing attached (R48) -/

/-- 29 answers 1 are a hint, a 16-bit word and no keyboard. -/
theorem idleBus_eq (rest : List Bit) :
    List.replicate 29 true ++ rest = [true] ++ (wireBits 16 (BitVec.allOnes 16) ++ (noKeyboard ++ rest)) := by
  rw [← List.append_assoc, ← List.append_assoc]
  rfl

theorem readsAs_idleBus {s : State} {rest : List Bit} (h : s.answers = List.replicate 29 true ++ rest) :
    ReadsAs s true ((BitVec.allOnes 16).setWidth 32) false 0 rest := by
  rw [idleBus_eq] at h
  exact readsAs_noKeyboard h (State.rawWord_short h (by decide))

theorem State.readsDisconnected_idleBus {s : State} {rest : List Bit} (h : s.answers = List.replicate 29 true ++ rest) :
    s.readsDisconnected = true := by
  rw [(readsAs_idleBus h).readsDisconnected]
  decide

/-- Re-detection on a bus that answers 1 to every read (R48, R78, R81). -/
theorem redetect_idleBus {s : State} {rest : List Bit} (h : s.answers = List.replicate 29 true ++ rest) :
    (redetect s).devType = .none ∧ (redetect s).answers = rest ∧ (redetect s).pad = s.pad ∧
      (redetect s).mouse = { s.mouse with speed := 0, fails := 0 } ∧ (redetect s).kbd.len = 0 ∧
      (redetect s).kbd.valid = false := by
  have hcycle : ReadsAs (setDevice .none s) true ((BitVec.allOnes 16).setWidth 32) false 0 rest := readsAs_idleBus h
  have hd : (setDevice .none s).readsDisconnected = true := State.readsDisconnected_idleBus h
  have htype : (setDevice .none s).readDone.devType = .none := State.readType_of_disconnected hd
  have hend : redetect s = { (setDevice .none s).readDone with ret := s.ret } := by
    rw [redetect_eq]
    exact if_pos htype
  rw [hend]
  exact ⟨htype, hcycle.rest, rfl, State.readMouse_of_disconnected hd, hcycle.readDone_kbd_len, hcycle.accepted⟩

/-- Settles O60: START re-detects once; POLL reads a disconnection and re-detects on the other 29 answers. -/
theorem disconnectedBusIsGivenUp : Obligations.DisconnectedBusIsGivenUp := by
  intro s rest hrunning
  refine ⟨fun h => ⟨_, execStart_running s hrunning, redetect_idleBus (s := s.beginOp) h⟩, fun hdevice h => ?poll⟩
  have hfirst : s.answers = List.replicate 29 true ++ (List.replicate 29 true ++ rest) := by
    rw [h, ← List.append_assoc, List.replicate_append_replicate]
  have hd := State.readsDisconnected_idleBus hfirst
  have hpoll := execPoll_disconnected hrunning hdevice (s.readWord_eq_zero_iff.mpr hd)
  obtain ⟨htype, hrest, hpad, hmouse, hlen, hvalid⟩ := redetect_idleBus
    (s := { s.readDone with trace := s.readTrace, ret := .none }) (readsAs_idleBus hfirst).rest
  refine ⟨_, hpoll, htype, hrest, hpad, hmouse.trans ?_, hlen, hvalid⟩
  have hcleared : s.readDone.mouse = { s.mouse with speed := 0, fails := 0 } := State.readMouse_of_disconnected hd
  rw [hcleared]

/-! ## A keyboard (R55) -/

theorem flatMap_wireBits_length (codes : List Byte) : (codes.flatMap (wireBits 8)).length = 8 * codes.length := by
  simp [List.length_flatMap, Nat.mul_comm]

/-- The answers of the payload, cut round its `i`-th scancode. -/
theorem flatMap_wireBits_split {codes : List Byte} {i : Nat} (h : i < codes.length) :
    codes.flatMap (wireBits 8) =
      (codes.take i).flatMap (wireBits 8) ++ (wireBits 8 codes[i] ++ (codes.drop (i + 1)).flatMap (wireBits 8)) := by
  conv_lhs => rw [← List.take_append_drop i codes, List.drop_eq_getElem_cons h]
  rw [List.flatMap_append, List.flatMap_cons]

/-- A listed payload is read back byte by byte (R89 step 6). -/
theorem State.valueAt_payload {s : State} {before after : List Bit} {codes : List Byte}
    (h : s.answers = before ++ (codes.flatMap (wireBits 8) ++ after)) {i : Nat} (hi : i < codes.length) :
    s.valueAt (before.length + 8 * i) 8 = codes[i] := by
  have hsplit : s.answers = (before ++ (codes.take i).flatMap (wireBits 8)) ++
      (wireBits 8 codes[i] ++ ((codes.drop (i + 1)).flatMap (wireBits 8) ++ after)) := by
    rw [h, flatMap_wireBits_split hi]
    simp only [List.append_assoc]
  have hlength : (before ++ (codes.take i).flatMap (wireBits 8)).length = before.length + 8 * i := by
    rw [List.length_append, flatMap_wireBits_length, List.length_take, Nat.min_eq_left hi.le]
  rw [← hlength]
  exact State.valueAt_wireBits hsplit

/-- A 16-bit word and a keyboard packet of the expected ID: the scancodes stand where the payload of the packet is read. -/
theorem readsAs_keyboard {s : State} {hint : Bit} {r : BitVec 16} {codes : List Byte} {rest : List Bit}
    (h : s.answers = [hint] ++ (wireBits 16 r ++ (keyboardPacket 0x78 codes ++ rest))) (h15 : r.getLsbD 15 = true)
    (hcodes : codes.length ≤ 15) :
    ReadsAs s hint (r.setWidth 32) true codes.length rest ∧
      ∀ i (hi : i < codes.length), s.valueAt (1 + s.frameLength + 12 + 8 * i) 8 = codes[i] := by
  obtain ⟨hlength, hraw⟩ := State.rawWord_short h h15
  have hhint := State.answerAt_zero_of_cons h
  rw [keyboardPacket, List.append_assoc, List.append_assoc] at h
  have hatId := h.trans (List.append_assoc _ _ _).symm
  have hatCount := hatId.trans (List.append_assoc _ _ _).symm
  have hatPayload := hatCount.trans (List.append_assoc _ _ _).symm
  have hid : s.valueAt 17 8 = 0x78 := by simpa using State.valueAt_wireBits hatId
  have hcount : s.valueAt 25 4 = BitVec.ofNat 4 codes.length := by simpa using State.valueAt_wireBits hatCount
  have hpayload : ∀ i (hi : i < codes.length), s.valueAt (29 + 8 * i) 8 = codes[i] := fun i hi => by
    simpa using State.valueAt_payload hatPayload hi
  have haccepted : idAccepted s.devType (s.valueAt 17 8) = true := by rw [hid, idAccepted_expected]
  have hscancodes : s.scancodesAt false 17 = codes.length := by
    rw [State.scancodesAt, payloadCount, haccepted, hcount]
    exact Nat.mod_eq_of_lt (by omega)
  have hrest : s.answers.drop (29 + 8 * codes.length) = rest := by
    rw [hatPayload, ← List.append_assoc, List.drop_left']
    simp only [List.length_append, List.length_singleton, wireBits_length, flatMap_wireBits_length]
  have hstart : 1 + s.frameLength = 17 := by rw [hlength]
  have hend : s.readDone.answers = rest := by rw [State.readDone_answers, hstart, hscancodes, hrest]
  rw [hstart]
  exact ⟨⟨hhint, hraw, hstart ▸ haccepted, hstart ▸ hscancodes, hend⟩, hpayload⟩

/-- A scancode taken stands in the buffer at its place (R89 step 6). -/
theorem State.packetAt_buf {s : State} {o : Bit} {off : Nat} {i : Fin 16} (h : i.val < s.scancodesAt o off) :
    (s.packetAt o off).buf[i] = s.valueAt (off + 12 + 8 * i.val) 8 := by
  simp only [State.packetAt, Fin.getElem_fin, Vector.getElem_ofFn]
  exact if_pos h

/-- Settles O58: the packet's ID is accepted, so the word is a keyboard's, and the buffer is the payload. -/
theorem keyboardPollDeliversTheScancodes : Obligations.KeyboardPollDeliversTheScancodes := by
  intro s hint r codes rest hrunning hdevice h15 hcodes hanswers
  have hlist : s.answers = [hint] ++ (wireBits 16 r ++ (keyboardPacket 0x78 codes ++ rest)) := by
    rw [hanswers]
    simp
  obtain ⟨hcycle, hpayload⟩ := readsAs_keyboard hlist h15 hcodes
  have hd := isDisconnected_of_keyboard hint (~~~(r.setWidth 32))
  have htype : s.readType = .keyboard := hcycle.readType hd
  have hmouse : s.readMouse = s.mouse := hcycle.readMouse_kept hd (by rw [htype]; decide)
  have hpoll := hcycle.execPoll hd hrunning hdevice
  rw [demuxByType_keyboard _ _ htype] at hpoll
  have hlen : s.readDone.kbd.len.toNat = codes.length := by
    rw [hcycle.readDone_kbd_len]
    exact Nat.mod_eq_of_lt (by omega)
  have hshown : s.readDone.outputs.scancodes = codes := by
    refine List.ext_getElem (s.readDone.outputs_scancodes_length.trans hlen) fun i hi hicodes => ?_
    have hbuf := s.readDone.outputs_scancodes_getElem (i := ⟨i, by omega⟩) (by rw [hlen]; exact hicodes)
    have hbyte := State.packetAt_buf (s := s) (o := false) (off := 1 + s.frameLength) (i := ⟨i, by omega⟩)
      (by rw [hcycle.scancodes]; exact hicodes)
    rw [List.getElem?_eq_getElem hi] at hbuf
    exact (Option.some.inj hbuf).trans (hbyte.trans (hpayload i hicodes))
  exact ⟨_, hpoll, htype, hcycle.rest, rfl, hmouse, hshown, hlen, hcycle.accepted⟩

end Sys2Proof.Machine
end
